-- ==== Sys2Proof/Word.lean ====
section
/-! DEFINITION. The data widths of LEG (00_scope.md R2): the 32-bit word of registers and main memory, the 8-bit
byte of the graphics memories, the 32 register numbers, the 5-bit condition code. -/

namespace Sys2Proof

/-- A register value, a main-memory word, a main-memory address (R2, R41). -/
abbrev Word := BitVec 32

/-- A cell of the frame buffer or of the sprite library (R46, R47). -/
abbrev Byte := BitVec 8

/-- A register number, 0 to 31 (R10). -/
abbrev Reg := Fin 32

/-- A 5-bit condition code: the Condition field of an instruction, or `STS.cc` (R21, R22). -/
abbrev Code := BitVec 5

/-- R26, the interrupt link register (R14). -/
abbrev Reg.intlr : Reg := 26
/-- R27, the interrupt handler register (R15). -/
abbrev Reg.ihdlr : Reg := 27
/-- R28, the program counter (R16). -/
abbrev Reg.pc : Reg := 28
/-- R29, the status register (R21). -/
abbrev Reg.sts : Reg := 29
/-- R30, the stack pointer (R25). -/
abbrev Reg.sp : Reg := 30
/-- R31, the link register (R26). -/
abbrev Reg.lr : Reg := 31

end Sys2Proof
end

