-- ==== Sys2Proof/Config.lean ====
section
/-! DEFINITION. What an implementation of LEG fixes and what the spec leaves open: the types of the open parameters
(00_scope.md section 4), and the free values, opaque constants without a body, which no proof can evaluate
(93_implementation_defined.md, treatment "any value"). Log 2, 3, 9. -/

namespace Sys2Proof

/-- EDITION (R1): which of the two binary-incompatible editions the machine is. -/
inductive Edition where
  | e1
  | e2
deriving DecidableEq, Repr

/-- The operand form a FORMSEL tag names (30_encoding.md R92). -/
inductive OperandMode where
  | reg
  | imm
deriving DecidableEq, Repr

/-- The jump variant a FORMSEL tag names: `normal` JMP, `subroutine` JMPS (R92), and in edition E2 also
`interruptReturn` JMPI (49 R332). -/
inductive JumpKind where
  | normal
  | subroutine
  | interruptReturn
deriving DecidableEq, Repr

/-- A form tag (R92). INT, BLITDIMS and BLIT use `mode` only. -/
structure FormTag where
  mode : OperandMode
  kind : JumpKind
deriving DecidableEq, Repr

/-- One rule of a FORMSEL table: the tag of the words it covers; `none` covers every address, or every word (R92:
"a function of both the address and the word"). -/
structure FormRule where
  addr : Option Word
  word : Option Word
  tag : FormTag
deriving DecidableEq, Repr

/-- DIV_ZERO (40_alu_arithmetic.md R113): what an integer division by zero does. -/
inductive OnZeroDivisor where
  | fault
  | any
deriving DecidableEq, Repr

/-- INT_FROM_MEMORY (43_control.md R219): what a fetched INT does. -/
inductive OnFetchedInt where
  | fault
  | execute
deriving DecidableEq, Repr

/-- FIMM_MODE (40_alu_arithmetic.md R114): how a 9-bit immediate becomes a float operand. -/
inductive FloatImmediate where
  | bits
  | convert
deriving DecidableEq, Repr

/-- FP (00_scope.md section 4; 93 U9): whether the float operations are IEEE 754 binary32 or left uninterpreted. -/
inductive FloatUnit where
  | ieee
  | uninterpreted
deriving DecidableEq, Repr

/-- A part of the machine's state that END can look at, each a number: every register (the pc and STS among them), every
cell of the three memories, the Blitter registers and their set marks (0 or 1), the count of completed steps. -/
inductive StatePart where
  | register (r : Reg)
  | memory (a : Word)
  | screen (a : BitVec 16)
  | sprite (a : BitVec 12)
  | blitterSource
  | blitterDest
  | blitterWidth
  | blitterHeight
  | blitterSourceSet
  | blitterDestSet
  | blitterWidthSet
  | blitterHeightSet
  | stepsDone
deriving DecidableEq, Repr

/-- END (70_reset_and_hazards.md R446): the predicate on states that ends an E1 run, as plain data. `never`: it never holds;
`atPc a`: the pc is `a`; `afterSteps n`: a step bound; `selfJump`: the pc points at a taken jump to itself; `equals p v` and
`atLeast p v` compare a part of the state with a number; `complement`, `both` and `either` combine predicates. The state the
spec gives an E1 machine is a fixed finite set of parts of fixed width, so every predicate on it is such a combination.
Log 21. -/
inductive EndOfRun where
  | never
  | atPc (a : Word)
  | afterSteps (n : Nat)
  | selfJump
  | equals (p : StatePart) (v : Nat)
  | atLeast (p : StatePart) (v : Nat)
  | complement (e : EndOfRun)
  | both (e f : EndOfRun)
  | either (e f : EndOfRun)
deriving DecidableEq, Repr

/-- The open parameters, fixed at launch (00_scope.md section 4; 70_reset_and_hazards.md R447). MEM_INIT and GFX_INIT are not
here: they are the memories' first content, an argument of `launch` (`InitialContents`). `condMatch = none` is the spec's
own relation (43_control.md R211; 49 R304 in E2); `some ps` is the relation that holds of exactly the listed (condition,
status) pairs. -/
structure Params where
  edition : Edition
  formsel : List FormRule
  condMatch : Option (List (Code × Code))
  floatUnit : FloatUnit
  floatImm : FloatImmediate
  divZero : OnZeroDivisor
  intFromMemory : OnFetchedInt
  endOfRun : EndOfRun
deriving DecidableEq, Repr

/-- The seven keys that raise an interrupt (60_exceptions.md R403). -/
inductive Key where
  | upArrow
  | downArrow
  | leftArrow
  | rightArrow
  | enter
  | escape
  | space
deriving DecidableEq, Repr

/-- One host move `Interrupt(code)` of the schedule: it is made at the first instruction boundary at which at least
`atStep` instruction steps have completed (60_exceptions.md R404). -/
structure KeyPress where
  atStep : Nat
  key : Key
deriving DecidableEq, Repr

/-- The four float operations, as names for the uninterpreted float unit. -/
inductive FloatOp where
  | add
  | sub
  | mul
  | div
deriving DecidableEq, Repr

namespace Config

/-- ANY_5: the n-th freely drawn condition code (40_alu_arithmetic.md R112). DESIGN CHOICE, log 9. -/
opaque anyCode : Nat → Code

/-- ANY_32: the n-th freely drawn word (40_alu_arithmetic.md R113, 41_alu_general.md R155). DESIGN CHOICE, log 9. -/
opaque anyWord : Nat → Word

/-- The sign bit of the n-th freely drawn NaN (40_alu_arithmetic.md R114). DESIGN CHOICE, log 13. -/
opaque anyNaNSign : Nat → BitVec 1

/-- The fraction of the n-th freely drawn NaN, less one: a NaN's 23-bit fraction is not zero
(40_alu_arithmetic.md R114). DESIGN CHOICE, log 13. -/
opaque anyNaNFraction : Nat → Fin 8388607

/-- The float operations of a machine whose FP parameter leaves them uninterpreted (93 U9). Log 13. -/
opaque floatResult : FloatOp → Word → Word → Word

/-- The float compare of a machine whose FP parameter leaves it uninterpreted (93 U9). Log 13. -/
opaque floatCompare : Word → Word → Code

end Config

end Sys2Proof
end

