-- ==== Sys2Proof/Machine/Memory.lean ====
section
/-! DEFINITION. A memory as plain data: a list of (address, byte) pairs with strictly rising addresses and no entry
equal to what an unlisted address reads as. The frame buffer and the sprite library are addressed by byte (20_memory.md
R46, R47); main memory holds the four bytes of word `a` at 4a to 4a+3, least significant first, which is their place in
the program file (R49, R53). Log 6, 7. -/

namespace Sys2Proof.Machine

/-- What an unlisted address reads as: MEM_INIT and GFX_INIT (20_memory.md R50, 70_reset_and_hazards.md R441) at 0. DESIGN
CHOICE, log 6. -/
def Memory.unlisted : Byte := 0

/-- The byte at address `k`. -/
def Memory.read : List Host.Cell → Nat → Byte
  | [], _ => Memory.unlisted
  | (a, v) :: rest, k => if a = k then v else Memory.read rest k

/-- The memory without its entry at `k`. -/
def Memory.erase (m : List Host.Cell) (k : Nat) : List Host.Cell :=
  m.filter fun c => c.1 != k

/-- The memory with an entry put in at its place in the order. -/
def Memory.insert (k : Nat) (v : Byte) : List Host.Cell → List Host.Cell
  | [] => [(k, v)]
  | (a, w) :: rest => if a < k then (a, w) :: Memory.insert k v rest else (k, v) :: (a, w) :: rest

/-- The memory with byte `v` at address `k`, in canonical form. -/
def Memory.write (m : List Host.Cell) (k : Nat) (v : Byte) : List Host.Cell :=
  if v = Memory.unlisted then Memory.erase m k else Memory.insert k v (Memory.erase m k)

/-- The memory of `n` cells whose cell `k` reads as the list `m` has it, in canonical form, for any list: where two entries
have one address the first counts, and an entry outside the memory counts for nothing. -/
def Memory.fill (n : Nat) : List Host.Cell → List Host.Cell
  | [] => []
  | (k, v) :: rest => if k < n then Memory.write (Memory.fill n rest) k v else Memory.fill n rest

/-- The canonical form: addresses strictly rising, no entry equal to what an unlisted address reads as. -/
def Memory.wf : List Host.Cell → Bool
  | [] => true
  | (a, v) :: rest => v != Memory.unlisted && rest.all (fun c => decide (a < c.1)) && Memory.wf rest

/-- Every listed address is below `n`. -/
def Memory.below (n : Nat) (m : List Host.Cell) : Bool :=
  m.all fun c => decide (c.1 < n)

/-- Where byte `i` of the main-memory word at `a` is held: its offset in the program file (R53). -/
def byteAddr (a : Word) (i : Nat) : Nat := 4 * a.toNat + i

/-- Byte `i` of a word, byte 0 the least significant (R49). -/
def wordByte (v : Word) (i : Nat) : Byte := v.extractLsb' (8 * i) 8

/-- The main-memory word at word address `a` (R41, R43). -/
def Memory.readWord (m : List Host.Cell) (a : Word) : Word :=
  Memory.read m (byteAddr a 3) ++ Memory.read m (byteAddr a 2) ++ Memory.read m (byteAddr a 1) ++
    Memory.read m (byteAddr a 0)

/-- Main memory with the word `v` at word address `a` (R44). -/
def Memory.writeWord (m : List Host.Cell) (a : Word) (v : Word) : List Host.Cell :=
  Memory.write (Memory.write (Memory.write (Memory.write m
    (byteAddr a 0) (wordByte v 0)) (byteAddr a 1) (wordByte v 1)) (byteAddr a 2) (wordByte v 2))
    (byteAddr a 3) (wordByte v 3)

end Sys2Proof.Machine
end

