-- ==== Sys2Proof/Machine/Params.lean ====
section
/-! DEFINITION. The settings of the open parameters right after reset (00_scope.md section 4), and what a setting gives:
the form tag of a word (30_encoding.md R92), the code of a key (60_exceptions.md R403). -/

namespace Sys2Proof.Machine

/-- The parameters after reset: EDITION, COND_MATCH, FP, FIMM_MODE, DIV_ZERO and INT_FROM_MEMORY stand at the spec's
defaults (00_scope.md section 4; log 2). FORMSEL and END have none: FORMSEL covers no word until a program is loaded
(log 3), END never holds (log 21). A launch sets them all. -/
def Params.atReset : Params where
  edition := .e1
  formsel := []
  condMatch := none
  floatUnit := .ieee
  floatImm := .bits
  divZero := .fault
  intFromMemory := .fault
  endOfRun := .never

/-- A FORMSEL rule covers the word `w` at the address `a`. -/
def formRuleCovers (r : FormRule) (a w : Word) : Bool :=
  (match r.addr with
    | some x => x == a
    | none => true) &&
  (match r.word with
    | some x => x == w
    | none => true)

/-- FORMSEL(a, w) (R92): the tag of the first rule that covers the word; `none` where the table has no entry. -/
def formSel : List FormRule → Word → Word → Option FormTag
  | [], _, _ => none
  | r :: rest, a, w => if formRuleCovers r a w then some r.tag else formSel rest a w

/-- The 4-bit interrupt code of a key (R403). -/
def keyCode : Key → BitVec 4
  | .upArrow => 0
  | .downArrow => 1
  | .leftArrow => 2
  | .rightArrow => 3
  | .enter => 4
  | .escape => 5
  | .space => 6

end Sys2Proof.Machine
end

