-- ==== Sys2Proof/Machine/State.lean ====
section
/-! DEFINITION. The state of the machine as plain data: everything the spec gives LEG (10_state.md; 49 R301), the open
parameters (00_scope.md section 4, fixed at launch), and four fields of the model's own (`draws`, `steps`, `schedule`,
`endPassed`).
INVENTORY.md lists each field with its rule and reset value. -/

namespace Sys2Proof.Machine

/-- The machine's state. -/
structure State where
  /-- R0 to R25, the general registers (R11). -/
  gpr : Vector Word 26
  /-- R26 INTLR, the interrupt link register (R14). -/
  intlr : Word
  /-- R27 IHDLR, the interrupt handler register; 0xFFFFFFFF means unset (R15). -/
  ihdlr : Word
  /-- R28 PC: between steps the address of the next instruction, inside a step that of the instruction itself (R16). -/
  pc : Word
  /-- R29 STS: condition code in bits 4:0, interrupt flag in bit 5 (R21). -/
  sts : BitVec 6
  /-- R30 SP (R25). -/
  sp : Word
  /-- R31 LR (R26). -/
  lr : Word
  /-- BSRC, the Blitter's sprite-library start address (R27). -/
  bsrc : BitVec 12
  /-- BDST, the Blitter's frame-buffer start address (R27). -/
  bdst : BitVec 16
  /-- BW, the Blitter's width (R27). -/
  bw : BitVec 7
  /-- BH, the Blitter's height (R27). -/
  bh : BitVec 7
  /-- BSRC has been written since reset: false is the spec's "unset" (R28). -/
  bsrcSet : Bool
  /-- BDST has been written since reset (R28). -/
  bdstSet : Bool
  /-- BW has been written since reset (R28). -/
  bwSet : Bool
  /-- BH has been written since reset (R28). -/
  bhSet : Bool
  /-- Main memory, 2^32 words, held by bytes (R29; Machine/Memory.lean). -/
  mem : List Host.Cell
  /-- The frame buffer, 2^16 bytes (R30). -/
  fb : List Host.Cell
  /-- The sprite library, 2^12 bytes (R30). -/
  spr : List Host.Cell
  /-- The machine has executed HALT; edition E2 only (49 R330). -/
  halted : Bool
  /-- The open parameters, fixed at launch (log 2). -/
  params : Params
  /-- The model's own: how many free values have been drawn (log 9). -/
  draws : Nat
  /-- The model's own: how many instruction steps have completed (log 19). -/
  steps : Nat
  /-- The model's own: the interrupts the host has still to raise, in order (R404; log 19). -/
  schedule : List KeyPress
  /-- The model's own: END has been evaluated at this instruction boundary and the host has moved since, so that it is
  evaluated again only after the next instruction (R446; log 19). -/
  endPassed : Bool
deriving DecidableEq, Repr

/-- Why the machine stops with a fault: the model-level faults of 60_exceptions.md R420, complete. LEG itself has no
synchronous exception (R400). Each is safe: the model stops where a simulator might go on. -/
inductive Fault where
  /-- Raised by the fetch: the operation code of the word `w` at `pc` is not assigned (30_encoding.md R76, R78; 49 R307).
  Safe. -/
  | illegalInstruction (pc w : Word)
  /-- Raised by DIVUI and DIVSI (E2: DIVU, DIVS) with a zero divisor when DIV_ZERO is `fault` (R113). Safe. -/
  | divideByZero (pc : Word)
  /-- Raised by INT when INT_FROM_MEMORY is `fault` (43_control.md R219). Safe. -/
  | internalInstruction (pc w : Word)
  /-- Raised by BLIT, and by nothing else, while a Blitter register is unset (10_state.md R28, 44_graphics.md R249 to R251;
  92 D29, 93 U15). No parameter turns it off (R420). Safe. -/
  | blitterUnset (pc : Word)
  /-- Raised by the fetch: the word is a Jump, INT, BLITDIMS or BLIT and FORMSEL has no tag for it (30_encoding.md R92).
  Safe. -/
  | noFormTag (pc w : Word)
deriving DecidableEq, Repr

/-- Why the machine refuses an instruction. No meaning of this model refuses one. -/
inductive Refusal where
  /-- Raised by an arm of `exec` whose instruction has no meaning yet (none has). Safe. -/
  | notModelled (mnemonic : String)
deriving DecidableEq, Repr

/-- What one instruction, or one step, answers. -/
abbrev Result := Host.Outcome State Fault Refusal

/-- The machine right after reset, edition E1 (10_state.md R31, 70_reset_and_hazards.md R441): no image is loaded. -/
def State.reset : State where
  gpr := Vector.replicate 26 0
  intlr := 0
  ihdlr := 0xFFFFFFFF
  pc := 0
  sts := 0b011111
  sp := 0
  lr := 0
  bsrc := 0
  bdst := 0
  bw := 0
  bh := 0
  bsrcSet := false
  bdstSet := false
  bwSet := false
  bhSet := false
  mem := []
  fb := []
  spr := []
  halted := false
  params := Params.atReset
  draws := 0
  steps := 0
  schedule := []
  endPassed := false

/-- The machine right after reset, edition E2: as E1, but null status is 00000 (49 R301). -/
def State.resetE2 : State :=
  { State.reset with
    sts := 0b000000
    params := { Params.atReset with edition := .e2 } }

end Sys2Proof.Machine
end

