-- ==== Sys2Proof/Machine/Flags.lean ====
section
/-! DEFINITION. The status register and everything that is computed into it or read from it: its two fields (10_state.md
R21), the condition codes of both editions (R22; 49 R303), what compare writes (41_alu_general.md R172), what an
arithmetic instruction leaves (40_alu_arithmetic.md R112), and when a jump's condition matches (43_control.md R211; 49
R304). -/

namespace Sys2Proof.Machine

/-! ### The fields of STS (R21) -/

/-- `STS.cc`, bits 4:0. -/
def State.code (s : State) : Code := s.sts.extractLsb' 0 5

/-- `STS.IF`, bit 5: an interrupt is being handled (R24). -/
def State.intFlag (s : State) : Bool := s.sts.getLsbD 5

/-- A status register from its two fields. -/
def stsOf (flag : Bool) (c : Code) : BitVec 6 := BitVec.ofBool flag ++ c

/-- `STS.cc <- c`; the flag is unchanged. -/
def State.setCode (s : State) (c : Code) : State := { s with sts := stsOf s.intFlag c }

/-- `STS.IF <- b`; the code is unchanged. -/
def State.setIntFlag (s : State) (b : Bool) : State := { s with sts := stsOf b s.code }

/-! ### Condition codes of E1 (R22) -/

/-- NE, not equal. -/
abbrev ccNE : Code := 0
/-- E, equal. -/
abbrev ccE : Code := 1
/-- GT, greater than. -/
abbrev ccGT : Code := 2
/-- LT, less than. -/
abbrev ccLT : Code := 3
/-- GTE, greater than or equal to. -/
abbrev ccGTE : Code := 4
/-- LTE, less than or equal to. -/
abbrev ccLTE : Code := 5
/-- OF, overflow. -/
abbrev ccOF : Code := 7
/-- Z, zero. -/
abbrev ccZ : Code := 8
/-- NZ, not zero. -/
abbrev ccNZ : Code := 9
/-- NEG, negative; for floats the same value is UF, underflow. -/
abbrev ccNEG : Code := 10
/-- POS, positive; for floats the same value is NAN, not a number. -/
abbrev ccPOS : Code := 11
/-- NAN, the float reading of 01011 (R22; 90_conflicts.md C18). -/
abbrev ccNAN : Code := 11
/-- NM, normalized (float). -/
abbrev ccNM : Code := 12
/-- INF, infinity (float). -/
abbrev ccINF : Code := 13
/-- MS, mantissa sign (float). -/
abbrev ccMS : Code := 14
/-- ES, exponent sign (float). -/
abbrev ccES : Code := 15
/-- NS, null status, matches everything. -/
abbrev ccNS : Code := 31

/-! ### Condition codes of E2 (49 R303) -/

/-- NS in E2. -/
abbrev e2NS : Code := 0
/-- NE in E2. -/
abbrev e2NE : Code := 1
/-- E in E2. -/
abbrev e2E : Code := 2
/-- GT in E2. -/
abbrev e2GT : Code := 3
/-- LT in E2. -/
abbrev e2LT : Code := 4
/-- GTE in E2. -/
abbrev e2GTE : Code := 5
/-- LTE in E2. -/
abbrev e2LTE : Code := 7

/-! ### Compare (R172): exactly one of three mutually exclusive codes -/

/-- The E1 code of comparing two integers, E, GT or LT (R152, R153). Log 16. -/
def compareCode (a b : Int) : Code := if a = b then ccE else if a > b then ccGT else ccLT

/-- The E2 code of comparing two integers (49 R327). Log 25. -/
def compareCodeE2 (a b : Int) : Code := if a = b then e2E else if a > b then e2GT else e2LT

/-! ### Matching (R211) -/

/-- The default COND_MATCH of E1, clauses (a) to (f) of R211. Log 15. -/
def condMatchE1 (c s : Code) : Bool :=
  c == ccNS || s == ccNS || c == s ||
  (c == ccNE && (s == ccGT || s == ccLT)) ||
  (c == ccGTE && (s == ccGT || s == ccE)) ||
  (c == ccLTE && (s == ccLT || s == ccE))

/-- The default COND_MATCH of E2 (49 R304). -/
def condMatchE2 (c s : Code) : Bool :=
  c == e2NS || s == e2NS || c == s ||
  (c == e2NE && (s == e2GT || s == e2LT)) ||
  (c == e2GTE && (s == e2GT || s == e2E)) ||
  (c == e2LTE && (s == e2LT || s == e2E))

/-- The condition `c` matches the status register, under the COND_MATCH parameter and the edition's default. -/
def State.condHolds (s : State) (dflt : Code → Code → Bool) (c : Code) : Bool :=
  match s.params.condMatch with
  | none => dflt c s.code
  | some pairs => pairs.contains (c, s.code)

/-! ### Free values (93_implementation_defined.md, "any value"; log 9) -/

/-- One draw has been made: the next one is another. -/
def State.drawn (s : State) : State := { s with draws := s.draws + 1 }

/-- The status after an arithmetic instruction: `STS.cc <- ANY_5`, `STS.IF` unchanged (R112). Log 10. -/
def State.arithmeticStatus (s : State) : State := (s.setCode (Config.anyCode s.draws)).drawn

end Sys2Proof.Machine
end

