-- ==== Sys2Proof/Machine/Ops.lean ====
section
/-! DEFINITION. The named operations over registers and memories, the end of an instruction (the pc's advance), taking an
interrupt and returning from one. Every access to a register or a memory cell goes through these. Log 17, 18, 19. -/

namespace Sys2Proof.Machine

/-! ### Registers: `x[i]` and `x[i] <- v` (10_state.md R12, R13, R17 to R20) -/

/-- `x[r]`: register 28 reads the address of this instruction (R17), register 29 reads `zext_32(STS)` (R19). -/
def State.getReg (s : State) (r : Reg) : Word :=
  if h : r.val < 26 then s.gpr[r.val]
  else if r = Reg.intlr then s.intlr
  else if r = Reg.ihdlr then s.ihdlr
  else if r = Reg.pc then s.pc
  else if r = Reg.sts then s.sts.setWidth 32
  else if r = Reg.sp then s.sp
  else s.lr

/-- `x[r] <- v`: register 28 sets the address of the next instruction (R18), register 29 keeps the low six bits (R20);
no register is hardwired (R11). -/
def State.setReg (s : State) (r : Reg) (v : Word) : State :=
  if h : r.val < 26 then { s with gpr := s.gpr.set r.val v }
  else if r = Reg.intlr then { s with intlr := v }
  else if r = Reg.ihdlr then { s with ihdlr := v }
  else if r = Reg.pc then { s with pc := v }
  else if r = Reg.sts then { s with sts := v.setWidth 6 }
  else if r = Reg.sp then { s with sp := v }
  else { s with lr := v }

/-- `pc <- (pc + 1) mod 2^32` (R18). -/
def State.advance (s : State) : State := { s with pc := s.pc + 1 }

/-- The end of an instruction whose destination is `d`: the pc advances unless the instruction wrote it (R18). -/
def State.retire (s : State) (d : Reg) : State := if d = Reg.pc then s else s.advance

/-- `x[d] <- v`, then the end of the instruction. -/
def State.writeBack (s : State) (d : Reg) (v : Word) : State := (s.setReg d v).retire d

/-! ### Memories (20_memory.md R43 to R47) -/

/-- `MemRead(a, 1)` (R43). -/
def State.memRead (s : State) (a : Word) : Word := Memory.readWord s.mem a

/-- `MemWrite(a, 1, v)` (R44). -/
def State.memWrite (s : State) (a v : Word) : State := { s with mem := Memory.writeWord s.mem a v }

/-- `SprRead(a)` (R47). -/
def State.sprRead (s : State) (a : BitVec 12) : Byte := Memory.read s.spr a.toNat

/-- `FbRead(a)` (R46). -/
def State.fbRead (s : State) (a : BitVec 16) : Byte := Memory.read s.fb a.toNat

/-- The pixel at row `r`, column `c` of the 256 x 256 screen, as the display reads it (R46). -/
def State.pixelAt (s : State) (r c : BitVec 8) : Byte := s.fbRead (r ++ c)

/-! ### Interrupts (60_exceptions.md R402, R405; 43_control.md R221) -/

/-- The interrupt mailbox, word 0xFFFFFFFF of main memory (20_memory.md R51). -/
def mailbox : Word := 0xFFFFFFFF

/-- The value of IHDLR that means "the handler is unset" (10_state.md R15). -/
def handlerUnset : Word := 0xFFFFFFFF

/-- An interrupt arriving now is taken, not ignored (R402). -/
def State.interruptAccepted (s : State) : Bool := !s.intFlag && s.ihdlr != handlerUnset

/-- Taking an interrupt: the steps of R405 after its two checks. The pc is saved into INTLR, the code goes into the
mailbox, the flag is set, the pc goes to the handler; nothing else is saved or changed. -/
def State.takeInterrupt (s : State) (code : BitVec 4) : State :=
  let flagged := s.setIntFlag true
  let stored := flagged.memWrite mailbox (code.setWidth 32)
  let linked := { stored with intlr := stored.pc }
  { linked with pc := linked.ihdlr }

/-- `Enter(code)` (R405): an ignored interrupt changes nothing and is lost (R402). -/
def State.enter (s : State) (code : BitVec 4) : State :=
  if s.interruptAccepted then s.takeInterrupt code else s

/-- Returning from an interrupt: the flag is cleared and the pc goes to INTLR; nothing else is restored (R221, R410). -/
def State.returnFromInterrupt (s : State) : State :=
  let cleared := s.setIntFlag false
  { cleared with pc := cleared.intlr }

/-- The return instruction of both editions (R221; 49 R337): with the flag clear it only advances the pc. -/
def State.interruptReturn (s : State) : State :=
  if s.intFlag then s.returnFromInterrupt else s.advance

end Sys2Proof.Machine
end

