-- ==== Sys2Proof/Machine/Operands.lean ====
section
/-! DEFINITION. Operand forms: the extension of each immediate (30_encoding.md R87) and the effective address of each
addressing form (42_memory_instructions.md R191, 43_control.md R213). Log 17, 29. -/

namespace Sys2Proof.Machine

/-- `sext_32` of the 9-bit `<OP2>` of arithmetic and logic, also in the unsigned forms (R87, R111). -/
def imm9 (i : BitVec 9) : Word := i.signExtend 32

/-- `sext_32` of the 14-bit shift amount (R87, R155). -/
def imm14 (i : BitVec 14) : Word := i.signExtend 32

/-- `sext_32` of the 17-bit load or store offset (R87, R191). -/
def imm17 (i : BitVec 17) : Word := i.signExtend 32

/-- `sext_32` of the 23-bit jump offset of E1 (R87, R213). -/
def imm23 (i : BitVec 23) : Word := i.signExtend 32

/-- `sext_32` of the 24-bit jump offset of E2 (49 R334). -/
def imm24 (i : BitVec 24) : Word := i.signExtend 32

/-- The effective address of LDR and STR immediate: `pc + 1 + sext_32(imm17)` (R191). -/
def State.dataAddress (s : State) (i : BitVec 17) : Word := s.pc + 1 + imm17 i

/-- The target of a jump by an offset: `pc + offset`, from the address of the jump itself (R213). -/
def State.jumpTarget (s : State) (offset : Word) : Word := s.pc + offset

/-- The low bits of a register that a graphics instruction uses ("first N least significant bits", 44_graphics.md R240). -/
def State.lowBits (s : State) (r : Reg) (n : Nat) : BitVec n := (s.getReg r).setWidth n

end Sys2Proof.Machine
end

