-- ==== Sys2Proof/Machine/Float.lean ====
section
/-! DEFINITION. IEEE 754 binary32 arithmetic on 32-bit patterns (40_alu_arithmetic.md R114), and the FP and FIMM_MODE
parameters. Finite values are counted in units of 2^-149, the smallest subnormal, so that sum, product and quotient are
exact ratios of natural numbers, rounded once, to nearest with ties to even. Log 13, 14. -/

namespace Sys2Proof.Machine

/-! ### The fields of a pattern (R114): sign bit 31, exponent bits 30:23, fraction bits 22:0 -/

/-- The sign bit. -/
def fSign (v : Word) : Bool := v.getLsbD 31

/-- The biased exponent. -/
def fExp (v : Word) : Nat := (v.extractLsb' 23 8).toNat

/-- The fraction. -/
def fFrac (v : Word) : Nat := (v.extractLsb' 0 23).toNat

/-- The pattern is a NaN. -/
def fIsNaN (v : Word) : Bool := fExp v == 255 && fFrac v != 0

/-- The pattern is an infinity. -/
def fIsInf (v : Word) : Bool := fExp v == 255 && fFrac v == 0

/-- The pattern is +0 or -0. -/
def fIsZero (v : Word) : Bool := fExp v == 0 && fFrac v == 0

/-- The magnitude in units of 2^-149; an infinity counts as 2^277, more than every finite magnitude. -/
def fMagnitude (v : Word) : Nat :=
  if fExp v = 0 then fFrac v else (2 ^ 23 + fFrac v) * 2 ^ (fExp v - 1)

/-- The signed value in units of 2^-149; both zeros are 0. -/
def fValue (v : Word) : Int := if fSign v then -(fMagnitude v : Int) else (fMagnitude v : Int)

/-- The pattern of a sign and the 31 bits below it. -/
def fPack (negative : Bool) (bits : Nat) : Word :=
  BitVec.ofNat 32 ((if negative then 2 ^ 31 else 0) + bits)

/-- The bits of +infinity. -/
def fInfBits : Nat := 255 * 2 ^ 23

/-- The 31 bits, exponent and fraction, of the binary32 number nearest to `n / d` units of 2^-149, ties to even; an
overflow gives infinity. With `k` the exponent that leaves a 24-bit significand `q`, the bits are `k * 2^23 + q`, also
where `q` rounds up to 2^24 or is subnormal. -/
def fRound (n d : Nat) : Nat :=
  let k := Nat.log2 (n / d) - 23
  let unit := d * 2 ^ k
  let q := n / unit
  let r := n % unit
  let rounded := if 2 * r > unit ∨ (2 * r = unit ∧ q % 2 = 1) then q + 1 else q
  min (k * 2 ^ 23 + rounded) fInfBits

/-! ### The four operations; `none` stands for a NaN result, whose sign and fraction are open -/

/-- a + b. -/
def fAdd (a b : Word) : Option Word :=
  if fIsNaN a || fIsNaN b then none
  else if fIsInf a then (if fIsInf b && fSign a != fSign b then none else some a)
  else if fIsInf b then some b
  else
    let sum := fValue a + fValue b
    if sum = 0 then some (fPack (fSign a && fSign b) 0)
    else some (fPack (decide (sum < 0)) (fRound sum.natAbs 1))

/-- The number with its sign turned. -/
def fNegate (a : Word) : Word := a ^^^ 0x80000000

/-- a - b. -/
def fSub (a b : Word) : Option Word := fAdd a (fNegate b)

/-- a * b. -/
def fMul (a b : Word) : Option Word :=
  let negative := fSign a != fSign b
  if fIsNaN a || fIsNaN b then none
  else if fIsInf a then (if fIsZero b then none else some (fPack negative fInfBits))
  else if fIsInf b then (if fIsZero a then none else some (fPack negative fInfBits))
  else some (fPack negative (fRound (fMagnitude a * fMagnitude b) (2 ^ 149)))

/-- a / b; division of a non-zero number by zero is an infinity, no fault. -/
def fDiv (a b : Word) : Option Word :=
  let negative := fSign a != fSign b
  if fIsNaN a || fIsNaN b then none
  else if fIsInf a then (if fIsInf b then none else some (fPack negative fInfBits))
  else if fIsInf b then some (fPack negative 0)
  else if fIsZero b then (if fIsZero a then none else some (fPack negative fInfBits))
  else some (fPack negative (fRound (fMagnitude a * 2 ^ 149) (fMagnitude b)))

/-- The binary32 value equal to a small integer (FIMM_MODE = convert, R114). -/
def fOfInt (i : Int) : Word := fPack (decide (i < 0)) (fRound (i.natAbs * 2 ^ 149) 1)

/-! ### The machine's float unit -/

/-- The n-th freely drawn NaN: its sign and its non-zero fraction are open (R114). Log 13. -/
def drawnNaN (n : Nat) : Word :=
  Config.anyNaNSign n ++ 255#8 ++ BitVec.ofNat 23 ((Config.anyNaNFraction n).val + 1)

/-- The operation of a name, IEEE 754. -/
def floatIeee : FloatOp → Word → Word → Option Word
  | .add => fAdd
  | .sub => fSub
  | .mul => fMul
  | .div => fDiv

/-- The result of a float operation under the FP parameter. -/
def State.floatResult (s : State) (op : FloatOp) (a b : Word) : Word :=
  match s.params.floatUnit with
  | .uninterpreted => Config.floatResult op a b
  | .ieee =>
    match floatIeee op a b with
    | some v => v
    | none => drawnNaN s.draws

/-- A 9-bit immediate as a float operand under FIMM_MODE (R114). Log 14. -/
def State.floatOperand (s : State) (i : BitVec 9) : Word :=
  match s.params.floatImm with
  | .bits => imm9 i
  | .convert => fOfInt i.toInt

/-- The code a float compare writes (41_alu_general.md R154): NAN if an operand is a NaN. Log 16. -/
def State.floatCompareCode (s : State) (a b : Word) : Code :=
  match s.params.floatUnit with
  | .uninterpreted => Config.floatCompare a b
  | .ieee => if fIsNaN a || fIsNaN b then ccNAN else compareCode (fValue a) (fValue b)

end Sys2Proof.Machine
end

