-- ==== Sys2Proof/Machine/Arithmetic.lean ====
section
/-! DEFINITION. The 24 arithmetic instructions (40_alu_arithmetic.md): the exact result of each operation narrowed to 32
bits (R113), its end shared by all (R112, R115), and one meaning per instruction. Log 10, 11, 13, 14. -/

namespace Sys2Proof.Machine

/-! ### Integer results (R113) -/

/-- `(u(a) + u(b)) mod 2^32`. -/
def addUnsigned (a b : Word) : Word := BitVec.ofNat 32 (a.toNat + b.toNat)

/-- `(s(a) + s(b)) mod 2^32`. -/
def addSigned (a b : Word) : Word := BitVec.ofInt 32 (a.toInt + b.toInt)

/-- `(u(a) - u(b)) mod 2^32`. -/
def subUnsigned (a b : Word) : Word := BitVec.ofInt 32 ((a.toNat : Int) - (b.toNat : Int))

/-- `(s(a) - s(b)) mod 2^32`. -/
def subSigned (a b : Word) : Word := BitVec.ofInt 32 (a.toInt - b.toInt)

/-- `(u(a) * u(b)) mod 2^32`. -/
def mulUnsigned (a b : Word) : Word := BitVec.ofNat 32 (a.toNat * b.toNat)

/-- `(s(a) * s(b)) mod 2^32`. -/
def mulSigned (a b : Word) : Word := BitVec.ofInt 32 (a.toInt * b.toInt)

/-- `floor(u(a) / u(b))`, for a divisor that is not zero. -/
def divUnsigned (a b : Word) : Option Word := some (BitVec.ofNat 32 (a.toNat / b.toNat))

/-- `trunc(s(a) / s(b))`, for a divisor that is not zero; `none` for -2^31 / -1, whose quotient does not fit: ANY_32. -/
def divSigned (a b : Word) : Option Word :=
  if a = 0x80000000 ∧ b = 0xFFFFFFFF then none else some (BitVec.ofInt 32 (a.toInt.tdiv b.toInt))

/-! ### The end of an arithmetic instruction -/

/-- `x[d] <- v`, then `STS.cc <- ANY_5`, then the pc advances unless `d` is the pc (R112, R115). -/
def finishArithmetic (d : Reg) (v : Word) (s : State) : Result :=
  .next (((s.setReg d v).arithmeticStatus).retire d)

/-- An integer division: by zero it faults or writes ANY_32, as DIV_ZERO says (R113); an unfitting quotient is ANY_32. -/
def divide (quotient : Word → Word → Option Word) (d : Reg) (a b : Word) (s : State) : Result :=
  if b = 0 then
    match s.params.divZero with
    | .fault => .fault (.divideByZero s.pc)
    | .any => finishArithmetic d (Config.anyWord s.draws) s
  else
    match quotient a b with
    | some v => finishArithmetic d v s
    | none => finishArithmetic d (Config.anyWord s.draws) s

/-- A float operation (R114). -/
def floatArithmetic (op : FloatOp) (d : Reg) (a b : Word) (s : State) : Result :=
  finishArithmetic d (s.floatResult op a b) s

/-! ### The instructions -/

/-- ADDUI, register direct (R116). -/
def execAddui (d a b : Reg) (s : State) : Result :=
  finishArithmetic d (addUnsigned (s.getReg a) (s.getReg b)) s

/-- ADDSI, register direct (R117). -/
def execAddsi (d a b : Reg) (s : State) : Result :=
  finishArithmetic d (addSigned (s.getReg a) (s.getReg b)) s

/-- ADDF, register direct (R118). -/
def execAddf (d a b : Reg) (s : State) : Result :=
  floatArithmetic .add d (s.getReg a) (s.getReg b) s

/-- ADDUI, immediate (R119). -/
def execAdduiImm (d a : Reg) (i : BitVec 9) (s : State) : Result :=
  finishArithmetic d (addUnsigned (s.getReg a) (imm9 i)) s

/-- ADDSI, immediate (R120). -/
def execAddsiImm (d a : Reg) (i : BitVec 9) (s : State) : Result :=
  finishArithmetic d (addSigned (s.getReg a) (imm9 i)) s

/-- ADDF, immediate (R121). -/
def execAddfImm (d a : Reg) (i : BitVec 9) (s : State) : Result :=
  floatArithmetic .add d (s.getReg a) (s.floatOperand i) s

/-- SUBUI, register direct (R122). -/
def execSubui (d a b : Reg) (s : State) : Result :=
  finishArithmetic d (subUnsigned (s.getReg a) (s.getReg b)) s

/-- SUBSI, register direct (R123). -/
def execSubsi (d a b : Reg) (s : State) : Result :=
  finishArithmetic d (subSigned (s.getReg a) (s.getReg b)) s

/-- SUBF, register direct (R124). -/
def execSubf (d a b : Reg) (s : State) : Result :=
  floatArithmetic .sub d (s.getReg a) (s.getReg b) s

/-- SUBUI, immediate (R125). -/
def execSubuiImm (d a : Reg) (i : BitVec 9) (s : State) : Result :=
  finishArithmetic d (subUnsigned (s.getReg a) (imm9 i)) s

/-- SUBSI, immediate (R126). -/
def execSubsiImm (d a : Reg) (i : BitVec 9) (s : State) : Result :=
  finishArithmetic d (subSigned (s.getReg a) (imm9 i)) s

/-- SUBF, immediate (R127). -/
def execSubfImm (d a : Reg) (i : BitVec 9) (s : State) : Result :=
  floatArithmetic .sub d (s.getReg a) (s.floatOperand i) s

/-- DIVUI, register direct (R128). -/
def execDivui (d a b : Reg) (s : State) : Result :=
  divide divUnsigned d (s.getReg a) (s.getReg b) s

/-- DIVSI, register direct (R129). -/
def execDivsi (d a b : Reg) (s : State) : Result :=
  divide divSigned d (s.getReg a) (s.getReg b) s

/-- DIVF, register direct (R130). -/
def execDivf (d a b : Reg) (s : State) : Result :=
  floatArithmetic .div d (s.getReg a) (s.getReg b) s

/-- DIVUI, immediate (R131). -/
def execDivuiImm (d a : Reg) (i : BitVec 9) (s : State) : Result :=
  divide divUnsigned d (s.getReg a) (imm9 i) s

/-- DIVSI, immediate (R132). -/
def execDivsiImm (d a : Reg) (i : BitVec 9) (s : State) : Result :=
  divide divSigned d (s.getReg a) (imm9 i) s

/-- DIVF, immediate (R133). -/
def execDivfImm (d a : Reg) (i : BitVec 9) (s : State) : Result :=
  floatArithmetic .div d (s.getReg a) (s.floatOperand i) s

/-- MLTUI, register direct (R134). -/
def execMltui (d a b : Reg) (s : State) : Result :=
  finishArithmetic d (mulUnsigned (s.getReg a) (s.getReg b)) s

/-- MLTSI, register direct (R135). -/
def execMltsi (d a b : Reg) (s : State) : Result :=
  finishArithmetic d (mulSigned (s.getReg a) (s.getReg b)) s

/-- MLTF, register direct (R136). -/
def execMltf (d a b : Reg) (s : State) : Result :=
  floatArithmetic .mul d (s.getReg a) (s.getReg b) s

/-- MLTUI, immediate (R137). -/
def execMltuiImm (d a : Reg) (i : BitVec 9) (s : State) : Result :=
  finishArithmetic d (mulUnsigned (s.getReg a) (imm9 i)) s

/-- MLTSI, immediate (R138). -/
def execMltsiImm (d a : Reg) (i : BitVec 9) (s : State) : Result :=
  finishArithmetic d (mulSigned (s.getReg a) (imm9 i)) s

/-- MLTF, immediate (R139). -/
def execMltfImm (d a : Reg) (i : BitVec 9) (s : State) : Result :=
  floatArithmetic .mul d (s.getReg a) (s.floatOperand i) s

end Sys2Proof.Machine
end

