-- ==== Sys2Proof/Machine/Control.lean ====
section
/-! DEFINITION. The control instructions (43_control.md): the jumps, SIH, INT, IJMP. Log 15, 17, 20. -/

namespace Sys2Proof.Machine

/-- `if COND_MATCH then pc <- target`, else the pc advances (R212, R213). -/
def jump (taken : Bool) (target : Word) (s : State) : Result :=
  if taken then .next { s with pc := target } else .next s.advance

/-- The link of a subroutine jump: `x[31] <- pc + 1` (R214). -/
def State.link (s : State) : State := s.setReg Reg.lr (s.pc + 1)

/-- A subroutine jump: when taken the link is written first and the target read after it; when not taken nothing
happens, LR included (R214, R215). -/
def jumpSubroutine (taken : Bool) (target : State → Word) (s : State) : Result :=
  if taken then .next { s.link with pc := target s.link } else .next s.advance

/-- An INT fetched from memory (R219): under INT_FROM_MEMORY = execute it runs `Enter(code)`, and when the interrupt is
ignored only advances the pc; under fault it faults. -/
def performInterrupt (code : BitVec 4) (s : State) : Result :=
  match s.params.intFromMemory with
  | .fault => .fault (.internalInstruction s.pc (s.memRead s.pc))
  | .execute => if s.interruptAccepted then .next (s.takeInterrupt code) else .next s.advance

/-- JMP, register direct (R212). -/
def execJmp (c : Code) (r : Reg) (s : State) : Result := jump (s.condHolds condMatchE1 c) (s.getReg r) s

/-- JMP, immediate (R213). -/
def execJmpImm (c : Code) (i : BitVec 23) (s : State) : Result :=
  jump (s.condHolds condMatchE1 c) (s.jumpTarget (imm23 i)) s

/-- JMPS, register direct (R214). -/
def execJmps (c : Code) (r : Reg) (s : State) : Result :=
  jumpSubroutine (s.condHolds condMatchE1 c) (fun t => t.getReg r) s

/-- JMPS, immediate (R215). -/
def execJmpsImm (c : Code) (i : BitVec 23) (s : State) : Result :=
  jumpSubroutine (s.condHolds condMatchE1 c) (fun t => t.jumpTarget (imm23 i)) s

/-- SIH (R216). -/
def execSih (r : Reg) (s : State) : Result := .next (s.writeBack Reg.ihdlr (s.getReg r))

/-- INT, register direct: the low four bits of the register are the code (R217). -/
def execInt (r : Reg) (s : State) : Result := performInterrupt ((s.getReg r).setWidth 4) s

/-- INT, immediate (R218). -/
def execIntImm (code : BitVec 4) (s : State) : Result := performInterrupt code s

/-- IJMP (R221). -/
def execIjmp (s : State) : Result := .next s.interruptReturn

end Sys2Proof.Machine
end

