-- ==== Sys2Proof/Machine/General.lean ====
section
/-! DEFINITION. The 19 general ALU instructions (41_alu_general.md): MV, compare, shifts, three-operand logic, NOT. None
faults and only the compares write the status register (R150). Log 12, 16. -/

namespace Sys2Proof.Machine

/-! ### Shifts (R155): `none` is ANY_32 -/

/-- The common part: amount 0 leaves the value, 32 or more gives ANY_32, else the shift's own rule. -/
def shiftBy (rule : Word → Nat → Option Word) (v : Word) (n : Nat) : Option Word :=
  if n = 0 then some v else if 32 ≤ n then none else rule v n

/-- Arithmetic left, for 1 to 31 (R156): a plain left shift where the n + 1 bits `v[31:31-n]` are all equal, else ANY_32. -/
def shiftAsl (v : Word) (n : Nat) : Option Word :=
  if (List.range (n + 1)).all (fun i => v.getLsbD (31 - i) == v.getLsbD 31) then some (v <<< n) else none

/-- Arithmetic right, for 1 to 31 (R157): copies of the sign bit enter at the top. -/
def shiftAsr (v : Word) (n : Nat) : Option Word := some (v.sshiftRight n)

/-- Logical left, for 1 to 31 (R160): zeros enter at bit 0. -/
def shiftLsl (v : Word) (n : Nat) : Option Word := some (v <<< n)

/-- Logical right, for 1 to 31 (R162): zeros enter at the top. -/
def shiftLsr (v : Word) (n : Nat) : Option Word := some (v >>> n)

/-- A shift of `x[d]` by `n` into `x[d]`; the value is read before it is written (R155). -/
def shift (rule : Word → Nat → Option Word) (d : Reg) (n : Nat) (s : State) : Result :=
  match shiftBy rule (s.getReg d) n with
  | some v => .next (s.writeBack d v)
  | none => .next (s.drawn.writeBack d (Config.anyWord s.draws))

/-- A compare: `STS.cc <- c`, `STS.IF` unchanged, and the pc advances (R172). -/
def finishCompare (c : Code) (s : State) : Result := .next (s.setCode c).advance

/-! ### The instructions -/

/-- MV (R151). -/
def execMv (d a : Reg) (s : State) : Result := .next (s.writeBack d (s.getReg a))

/-- CMPUI (R152). -/
def execCmpui (a b : Reg) (s : State) : Result :=
  finishCompare (compareCode (s.getReg a).toNat (s.getReg b).toNat) s

/-- CMPSI (R153). -/
def execCmpsi (a b : Reg) (s : State) : Result :=
  finishCompare (compareCode (s.getReg a).toInt (s.getReg b).toInt) s

/-- CMPF (R154). -/
def execCmpf (a b : Reg) (s : State) : Result :=
  finishCompare (s.floatCompareCode (s.getReg a) (s.getReg b)) s

/-- ASL, register direct (R156). -/
def execAsl (d a : Reg) (s : State) : Result := shift shiftAsl d (s.getReg a).toNat s

/-- ASR, register direct (R157). -/
def execAsr (d a : Reg) (s : State) : Result := shift shiftAsr d (s.getReg a).toNat s

/-- ASL, immediate (R158). -/
def execAslImm (d : Reg) (i : BitVec 14) (s : State) : Result := shift shiftAsl d (imm14 i).toNat s

/-- ASR, immediate (R159). -/
def execAsrImm (d : Reg) (i : BitVec 14) (s : State) : Result := shift shiftAsr d (imm14 i).toNat s

/-- LSL, register direct (R160). -/
def execLsl (d a : Reg) (s : State) : Result := shift shiftLsl d (s.getReg a).toNat s

/-- LSL, immediate (R161). -/
def execLslImm (d : Reg) (i : BitVec 14) (s : State) : Result := shift shiftLsl d (imm14 i).toNat s

/-- LSR, register direct (R162). -/
def execLsr (d a : Reg) (s : State) : Result := shift shiftLsr d (s.getReg a).toNat s

/-- LSR, immediate (R163). -/
def execLsrImm (d : Reg) (i : BitVec 14) (s : State) : Result := shift shiftLsr d (imm14 i).toNat s

/-- AND, register direct (R165). -/
def execAnd (d a b : Reg) (s : State) : Result := .next (s.writeBack d (s.getReg a &&& s.getReg b))

/-- AND, immediate (R166). -/
def execAndImm (d a : Reg) (i : BitVec 9) (s : State) : Result := .next (s.writeBack d (s.getReg a &&& imm9 i))

/-- OR, register direct (R167). -/
def execOr (d a b : Reg) (s : State) : Result := .next (s.writeBack d (s.getReg a ||| s.getReg b))

/-- OR, immediate (R168). -/
def execOrImm (d a : Reg) (i : BitVec 9) (s : State) : Result := .next (s.writeBack d (s.getReg a ||| imm9 i))

/-- XOR, register direct (R169). -/
def execXor (d a b : Reg) (s : State) : Result := .next (s.writeBack d (s.getReg a ^^^ s.getReg b))

/-- XOR, immediate (R170). -/
def execXorImm (d a : Reg) (i : BitVec 9) (s : State) : Result := .next (s.writeBack d (s.getReg a ^^^ imm9 i))

/-- NOT (R171). -/
def execNot (d a : Reg) (s : State) : Result := .next (s.writeBack d (~~~ s.getReg a))

end Sys2Proof.Machine
end

