-- ==== Sys2Proof/Machine/Graphics.lean ====
section
/-! DEFINITION. The graphics instructions and the Blitter (44_graphics.md). Each completes inside its own step; none
writes a register of the register file or the status register (R240). Log 8, 23, 24. -/

namespace Sys2Proof.Machine

/-! ### The sixteen Blitter operations (R241, R242) -/

/-- `BLOP(op, s, d)`: each of the four bits of the code selects one of the four products (R242). -/
def blop (op : BitVec 4) (s d : Byte) : Byte :=
  (if op.getLsbD 3 then ~~~s &&& ~~~d else 0) ||| (if op.getLsbD 2 then ~~~s &&& d else 0) |||
    (if op.getLsbD 1 then s &&& ~~~d else 0) ||| (if op.getLsbD 0 then s &&& d else 0)

/-! ### GLOD's copy (R243) -/

/-- The sprite library after the first `n` bytes of the copy from main address `a` to sprite address `d`: byte `k` is byte
`k mod 4` of word `a + k div 4`, least significant first. -/
def glodCopy (s : State) (d : BitVec 12) (a : Word) : Nat → List Host.Cell
  | 0 => s.spr
  | k + 1 =>
    Memory.write (glodCopy s d a k) (d + BitVec.ofNat 12 k).toNat
      (wordByte (s.memRead (a + BitVec.ofNat 32 (k / 4))) (k % 4))

/-- The copy of `n` bytes, and the end of the instruction. -/
def glod (d : BitVec 12) (a : Word) (n : BitVec 12) (s : State) : Result :=
  .next { s with spr := glodCopy s d a n.toNat }.advance

/-! ### The transfer (R249) -/

/-- The sprite-library address of row `r`, column `c`: `BSRC + r * BW + c` mod 2^12. -/
def State.spriteAddress (s : State) (r c : Nat) : BitVec 12 := s.bsrc + BitVec.ofNat 12 (r * s.bw.toNat + c)

/-- The frame-buffer address of row `r`, column `c`: `BDST + r * 256 + c` mod 2^16. -/
def State.screenAddress (s : State) (r c : Nat) : BitVec 16 := s.bdst + BitVec.ofNat 16 (r * 256 + c)

/-- The first `n` pixels of row `r`, drawn into `fb`. -/
def blitRow (s : State) (op : BitVec 4) (mask : Byte) (fb : List Host.Cell) (r : Nat) : Nat → List Host.Cell
  | 0 => fb
  | c + 1 =>
    let before := blitRow s op mask fb r c
    let a := (s.screenAddress r c).toNat
    Memory.write before a (blop op (s.sprRead (s.spriteAddress r c)) (Memory.read before a) &&& mask)

/-- The frame buffer after the first `n` rows. -/
def blitRows (s : State) (op : BitVec 4) (mask : Byte) : Nat → List Host.Cell
  | 0 => s.fb
  | r + 1 => blitRow s op mask (blitRows s op mask r) r s.bw.toNat

/-- Every Blitter register has been written since reset (R28). -/
def State.blitterReady (s : State) : Bool := s.bsrcSet && s.bdstSet && s.bwSet && s.bhSet

/-- `Blit(op, mask)` (R249): "if BSRC, BDST, BW or BH is unset then raise BlitterUnset(pc)", and else the whole rectangle, in
one step. -/
def blit (op : BitVec 4) (mask : Byte) (s : State) : Result :=
  if s.blitterReady then .next { s with fb := blitRows s op mask s.bh.toNat }.advance
  else .fault (.blitterUnset s.pc)

/-- `BW <- w; BH <- h`, both now set (R247, R248). -/
def setDimensions (w h : BitVec 7) (s : State) : Result :=
  .next { s with bw := w, bh := h, bwSet := true, bhSet := true }.advance

/-! ### The instructions -/

/-- GLOD, register direct (R244). -/
def execGlod (d r n : Reg) (s : State) : Result := glod (s.lowBits d 12) (s.getReg r) (s.lowBits n 12) s

/-- GLOD, immediate (R245): it has a meaning and no encoding, so no constructor of `Instr` stands for it; the base of the
source address is the address of the GLOD itself. Log 23. -/
def execGlodImm (d : BitVec 12) (offset : BitVec 10) (n : BitVec 12) (s : State) : Result :=
  glod d (s.jumpTarget (offset.signExtend 32)) n s

/-- BLITMEM (R246). -/
def execBlitmem (r d : Reg) (s : State) : Result :=
  .next { s with bsrc := s.lowBits r 12, bdst := s.lowBits d 16, bsrcSet := true, bdstSet := true }.advance

/-- BLITDIMS, register direct (R247). -/
def execBlitdims (w h : Reg) (s : State) : Result := setDimensions (s.lowBits w 7) (s.lowBits h 7) s

/-- BLITDIMS, immediate (R248). -/
def execBlitdimsImm (w h : BitVec 7) (s : State) : Result := setDimensions w h s

/-- BLIT, register direct (R250). -/
def execBlit (o m : Reg) (s : State) : Result := blit (s.lowBits o 4) (s.lowBits m 8) s

/-- BLIT, immediate (R251). -/
def execBlitImm (o : BitVec 4) (m : BitVec 8) (s : State) : Result := blit o m s

end Sys2Proof.Machine
end

