-- ==== Sys2Proof/Machine/LoadStore.lean ====
section
/-! DEFINITION. The six memory instructions (42_memory_instructions.md). Each access moves one whole word; none faults and
none changes the status register unless the status register is the destination (R190). Log 17. -/

namespace Sys2Proof.Machine

/-- A load of the word at `ea` into `x[d]`. -/
def load (d : Reg) (ea : Word) (s : State) : Result := .next (s.writeBack d (s.memRead ea))

/-- A store of `v` to the word at `ea`. -/
def store (ea v : Word) (s : State) : Result := .next (s.memWrite ea v).advance

/-- `x[30] <- x[30] - 1`, then the store of `x[r]`, read after the decrement, at the new SP (R196). -/
def pushWord (r : Reg) (s : State) : Result :=
  let lowered := s.setReg Reg.sp (s.sp - 1)
  store lowered.sp (lowered.getReg r) lowered

/-- `x[d] <- MemRead(x[30])`, then `x[30] <- x[30] + 1`, of the SP as the load left it (R197). -/
def popWord (d : Reg) (s : State) : Result :=
  let loaded := s.setReg d (s.memRead s.sp)
  .next ((loaded.setReg Reg.sp (loaded.sp + 1)).retire d)

/-- LDR, register direct (R192). -/
def execLdr (d a : Reg) (s : State) : Result := load d (s.getReg a) s

/-- LDR, immediate: pc-relative (R193). -/
def execLdrImm (d : Reg) (i : BitVec 17) (s : State) : Result := load d (s.dataAddress i) s

/-- STR, register direct (R194). -/
def execStr (r a : Reg) (s : State) : Result := store (s.getReg a) (s.getReg r) s

/-- STR, immediate: pc-relative (R195). -/
def execStrImm (r : Reg) (i : BitVec 17) (s : State) : Result := store (s.dataAddress i) (s.getReg r) s

/-- PUSH (R196). -/
def execPush (r : Reg) (s : State) : Result := pushWord r s

/-- POP (R197). -/
def execPop (d : Reg) (s : State) : Result := popWord d s

end Sys2Proof.Machine
end

