-- ==== Sys2Proof/Syntax.lean ====
section
/-! DEFINITION. The instructions of LEG, edition E1: one constructor per row of spec/opcode_table.json, in the table's
order. The Condition field is an operand of the jumps only (30_encoding.md R72). Immediates are the fields as encoded;
their extension is the meaning's (Machine/Operands.lean). -/

namespace Sys2Proof

/-- The instructions of edition E1, each operand form its own constructor. -/
inductive Instr where
  /-- ADDUI register direct (R116). -/
  | addui (dest op1 op2 : Reg)
  /-- ADDSI register direct (R117). -/
  | addsi (dest op1 op2 : Reg)
  /-- ADDF register direct (R118). -/
  | addf (dest op1 op2 : Reg)
  /-- ADDUI immediate (R119). -/
  | adduiImm (dest op1 : Reg) (imm : BitVec 9)
  /-- ADDSI immediate (R120). -/
  | addsiImm (dest op1 : Reg) (imm : BitVec 9)
  /-- ADDF immediate (R121). -/
  | addfImm (dest op1 : Reg) (imm : BitVec 9)
  /-- SUBUI register direct (R122). -/
  | subui (dest op1 op2 : Reg)
  /-- SUBSI register direct (R123). -/
  | subsi (dest op1 op2 : Reg)
  /-- SUBF register direct (R124). -/
  | subf (dest op1 op2 : Reg)
  /-- SUBUI immediate (R125). -/
  | subuiImm (dest op1 : Reg) (imm : BitVec 9)
  /-- SUBSI immediate (R126). -/
  | subsiImm (dest op1 : Reg) (imm : BitVec 9)
  /-- SUBF immediate (R127). -/
  | subfImm (dest op1 : Reg) (imm : BitVec 9)
  /-- DIVUI register direct (R128). -/
  | divui (dest op1 op2 : Reg)
  /-- DIVSI register direct (R129). -/
  | divsi (dest op1 op2 : Reg)
  /-- DIVF register direct (R130). -/
  | divf (dest op1 op2 : Reg)
  /-- DIVUI immediate (R131). -/
  | divuiImm (dest op1 : Reg) (imm : BitVec 9)
  /-- DIVSI immediate (R132). -/
  | divsiImm (dest op1 : Reg) (imm : BitVec 9)
  /-- DIVF immediate (R133). -/
  | divfImm (dest op1 : Reg) (imm : BitVec 9)
  /-- MLTUI register direct (R134). -/
  | mltui (dest op1 op2 : Reg)
  /-- MLTSI register direct (R135). -/
  | mltsi (dest op1 op2 : Reg)
  /-- MLTF register direct (R136). -/
  | mltf (dest op1 op2 : Reg)
  /-- MLTUI immediate (R137). -/
  | mltuiImm (dest op1 : Reg) (imm : BitVec 9)
  /-- MLTSI immediate (R138). -/
  | mltsiImm (dest op1 : Reg) (imm : BitVec 9)
  /-- MLTF immediate (R139). -/
  | mltfImm (dest op1 : Reg) (imm : BitVec 9)
  /-- MV (R151). -/
  | mv (dest src : Reg)
  /-- CMPUI (R152). -/
  | cmpui (op1 op2 : Reg)
  /-- CMPSI (R153). -/
  | cmpsi (op1 op2 : Reg)
  /-- CMPF (R154). -/
  | cmpf (op1 op2 : Reg)
  /-- ASL register direct (R156). -/
  | asl (dest op1 : Reg)
  /-- ASR register direct (R157). -/
  | asr (dest op1 : Reg)
  /-- ASL immediate (R158). -/
  | aslImm (dest : Reg) (imm : BitVec 14)
  /-- ASR immediate (R159). -/
  | asrImm (dest : Reg) (imm : BitVec 14)
  /-- LSL register direct (R160). -/
  | lsl (dest op1 : Reg)
  /-- LSL immediate (R161). -/
  | lslImm (dest : Reg) (imm : BitVec 14)
  /-- LSR register direct (R162). -/
  | lsr (dest op1 : Reg)
  /-- LSR immediate (R163). -/
  | lsrImm (dest : Reg) (imm : BitVec 14)
  /-- AND register direct (R165). -/
  | and (dest op1 op2 : Reg)
  /-- AND immediate (R166). -/
  | andImm (dest op1 : Reg) (imm : BitVec 9)
  /-- OR register direct (R167). -/
  | or (dest op1 op2 : Reg)
  /-- OR immediate (R168). -/
  | orImm (dest op1 : Reg) (imm : BitVec 9)
  /-- XOR register direct (R169). -/
  | xor (dest op1 op2 : Reg)
  /-- XOR immediate (R170). -/
  | xorImm (dest op1 : Reg) (imm : BitVec 9)
  /-- NOT (R171). -/
  | not (dest op1 : Reg)
  /-- LDR register direct (R192). -/
  | ldr (dest addr : Reg)
  /-- LDR immediate, pc-relative (R193). -/
  | ldrImm (dest : Reg) (imm : BitVec 17)
  /-- STR register direct (R194). -/
  | str (src addr : Reg)
  /-- STR immediate, pc-relative (R195). -/
  | strImm (src : Reg) (imm : BitVec 17)
  /-- PUSH (R196). -/
  | push (src : Reg)
  /-- POP (R197). -/
  | pop (dest : Reg)
  /-- JMP register direct (R212). -/
  | jmp (cond : Code) (addr : Reg)
  /-- JMP immediate (R213). -/
  | jmpImm (cond : Code) (imm : BitVec 23)
  /-- JMPS register direct (R214). -/
  | jmps (cond : Code) (addr : Reg)
  /-- JMPS immediate (R215). -/
  | jmpsImm (cond : Code) (imm : BitVec 23)
  /-- SIH (R216). -/
  | sih (addr : Reg)
  /-- INT register direct (R217). -/
  | int (code : Reg)
  /-- INT immediate (R218). -/
  | intImm (code : BitVec 4)
  /-- IJMP (R221). -/
  | ijmp
  /-- GLOD register direct, the only encoded form (R244, R86). -/
  | glod (dest src len : Reg)
  /-- BLITMEM (R246). -/
  | blitmem (src dest : Reg)
  /-- BLITDIMS register direct (R247). -/
  | blitdims (width height : Reg)
  /-- BLITDIMS immediate (R248). -/
  | blitdimsImm (width height : BitVec 7)
  /-- BLIT register direct (R250). -/
  | blit (op mask : Reg)
  /-- BLIT immediate (R251). -/
  | blitImm (op : BitVec 4) (mask : BitVec 8)
deriving DecidableEq, Repr

end Sys2Proof
end

