-- ==== Sys2Proof/Machine/Dispatch.lean ====
section
/-! DEFINITION. The meaning of every E1 instruction: one arm per constructor, each one direct call. -/

namespace Sys2Proof.Machine

def exec (i : Instr) (s : State) : Host.Outcome State Fault Refusal :=
  match i with
  | .addui d a b => Sys2Proof.Machine.execAddui d a b s
  | .addsi d a b => Sys2Proof.Machine.execAddsi d a b s
  | .addf d a b => Sys2Proof.Machine.execAddf d a b s
  | .adduiImm d a k => Sys2Proof.Machine.execAdduiImm d a k s
  | .addsiImm d a k => Sys2Proof.Machine.execAddsiImm d a k s
  | .addfImm d a k => Sys2Proof.Machine.execAddfImm d a k s
  | .subui d a b => Sys2Proof.Machine.execSubui d a b s
  | .subsi d a b => Sys2Proof.Machine.execSubsi d a b s
  | .subf d a b => Sys2Proof.Machine.execSubf d a b s
  | .subuiImm d a k => Sys2Proof.Machine.execSubuiImm d a k s
  | .subsiImm d a k => Sys2Proof.Machine.execSubsiImm d a k s
  | .subfImm d a k => Sys2Proof.Machine.execSubfImm d a k s
  | .divui d a b => Sys2Proof.Machine.execDivui d a b s
  | .divsi d a b => Sys2Proof.Machine.execDivsi d a b s
  | .divf d a b => Sys2Proof.Machine.execDivf d a b s
  | .divuiImm d a k => Sys2Proof.Machine.execDivuiImm d a k s
  | .divsiImm d a k => Sys2Proof.Machine.execDivsiImm d a k s
  | .divfImm d a k => Sys2Proof.Machine.execDivfImm d a k s
  | .mltui d a b => Sys2Proof.Machine.execMltui d a b s
  | .mltsi d a b => Sys2Proof.Machine.execMltsi d a b s
  | .mltf d a b => Sys2Proof.Machine.execMltf d a b s
  | .mltuiImm d a k => Sys2Proof.Machine.execMltuiImm d a k s
  | .mltsiImm d a k => Sys2Proof.Machine.execMltsiImm d a k s
  | .mltfImm d a k => Sys2Proof.Machine.execMltfImm d a k s
  | .mv d r => Sys2Proof.Machine.execMv d r s
  | .cmpui a b => Sys2Proof.Machine.execCmpui a b s
  | .cmpsi a b => Sys2Proof.Machine.execCmpsi a b s
  | .cmpf a b => Sys2Proof.Machine.execCmpf a b s
  | .asl d a => Sys2Proof.Machine.execAsl d a s
  | .asr d a => Sys2Proof.Machine.execAsr d a s
  | .aslImm d k => Sys2Proof.Machine.execAslImm d k s
  | .asrImm d k => Sys2Proof.Machine.execAsrImm d k s
  | .lsl d a => Sys2Proof.Machine.execLsl d a s
  | .lslImm d k => Sys2Proof.Machine.execLslImm d k s
  | .lsr d a => Sys2Proof.Machine.execLsr d a s
  | .lsrImm d k => Sys2Proof.Machine.execLsrImm d k s
  | .and d a b => Sys2Proof.Machine.execAnd d a b s
  | .andImm d a k => Sys2Proof.Machine.execAndImm d a k s
  | .or d a b => Sys2Proof.Machine.execOr d a b s
  | .orImm d a k => Sys2Proof.Machine.execOrImm d a k s
  | .xor d a b => Sys2Proof.Machine.execXor d a b s
  | .xorImm d a k => Sys2Proof.Machine.execXorImm d a k s
  | .not d a => Sys2Proof.Machine.execNot d a s
  | .ldr d a => Sys2Proof.Machine.execLdr d a s
  | .ldrImm d k => Sys2Proof.Machine.execLdrImm d k s
  | .str r a => Sys2Proof.Machine.execStr r a s
  | .strImm r k => Sys2Proof.Machine.execStrImm r k s
  | .push r => Sys2Proof.Machine.execPush r s
  | .pop d => Sys2Proof.Machine.execPop d s
  | .jmp c a => Sys2Proof.Machine.execJmp c a s
  | .jmpImm c k => Sys2Proof.Machine.execJmpImm c k s
  | .jmps c a => Sys2Proof.Machine.execJmps c a s
  | .jmpsImm c k => Sys2Proof.Machine.execJmpsImm c k s
  | .sih a => Sys2Proof.Machine.execSih a s
  | .int c => Sys2Proof.Machine.execInt c s
  | .intImm c => Sys2Proof.Machine.execIntImm c s
  | .ijmp => Sys2Proof.Machine.execIjmp s
  | .glod d r n => Sys2Proof.Machine.execGlod d r n s
  | .blitmem r d => Sys2Proof.Machine.execBlitmem r d s
  | .blitdims w h => Sys2Proof.Machine.execBlitdims w h s
  | .blitdimsImm w h => Sys2Proof.Machine.execBlitdimsImm w h s
  | .blit o m => Sys2Proof.Machine.execBlit o m s
  | .blitImm o m => Sys2Proof.Machine.execBlitImm o m s

end Sys2Proof.Machine
end

