-- ==== Sys2Proof/Decode.lean ====
section
/-! DEFINITION. The E1 decoder and encoder (30_encoding.md). Every instruction is one 32-bit word; Condition is bits 4:0
in every format (R70, R81), Type is bits 6:5 (R71), the Operation field starts at bit 7. The decoder ignores the
Condition of every non-jump (R72) and every Not Used bit (R88), rejects the unassigned operation codes by name (R76,
R78), and takes the operand form of the five shared operation codes from a FORMSEL tag (R91, R92). Log 3, 4, 22. -/

namespace Sys2Proof

/-- Why a word is not decoded. -/
inductive DecodeError where
  /-- Fewer than four bytes were given: no instruction word. -/
  | truncated
  /-- The operation code is not assigned (R76, R78). -/
  | illegalInstruction
  /-- The operation code is shared by several forms and no tag says which (R92). -/
  | noFormTag
deriving DecidableEq, Repr

/-- The 5-bit register field of `w` whose lowest bit is `lo`: it accepts all 32 numbers (R89). -/
def regField (w : Word) (lo : Nat) : Reg := (w.extractLsb' lo 5).toFin

/-- The ALU operations, `w[12:7]` (R74, R75). -/
def decodeAlu (w : Word) : Except DecodeError Instr :=
  let d := regField w 13
  let a := regField w 18
  let b := regField w 23
  let i9 := w.extractLsb' 23 9
  let i14 := w.extractLsb' 18 14
  match (w.extractLsb' 7 6).toNat with
  | 1 => .ok (.addui d a b)
  | 2 => .ok (.addsi d a b)
  | 3 => .ok (.addf d a b)
  | 4 => .ok (.adduiImm d a i9)
  | 5 => .ok (.addsiImm d a i9)
  | 6 => .ok (.addfImm d a i9)
  | 7 => .ok (.subui d a b)
  | 8 => .ok (.subsi d a b)
  | 9 => .ok (.subf d a b)
  | 10 => .ok (.subuiImm d a i9)
  | 11 => .ok (.subsiImm d a i9)
  | 12 => .ok (.subfImm d a i9)
  | 13 => .ok (.divui d a b)
  | 14 => .ok (.divsi d a b)
  | 15 => .ok (.divf d a b)
  | 16 => .ok (.divuiImm d a i9)
  | 17 => .ok (.divsiImm d a i9)
  | 18 => .ok (.divfImm d a i9)
  | 19 => .ok (.mltui d a b)
  | 20 => .ok (.mltsi d a b)
  | 21 => .ok (.mltf d a b)
  | 22 => .ok (.mltuiImm d a i9)
  | 23 => .ok (.mltsiImm d a i9)
  | 24 => .ok (.mltfImm d a i9)
  | 25 => .ok (.mv d a)
  | 26 => .ok (.cmpui d a)
  | 27 => .ok (.cmpsi d a)
  | 28 => .ok (.cmpf d a)
  | 29 => .ok (.asl d a)
  | 30 => .ok (.asr d a)
  | 31 => .ok (.aslImm d i14)
  | 32 => .ok (.asrImm d i14)
  | 33 => .ok (.lsl d a)
  | 34 => .ok (.lslImm d i14)
  | 35 => .ok (.lsr d a)
  | 36 => .ok (.lsrImm d i14)
  | 37 => .ok (.and d a b)
  | 38 => .ok (.andImm d a i9)
  | 39 => .ok (.or d a b)
  | 40 => .ok (.orImm d a i9)
  | 41 => .ok (.xor d a b)
  | 42 => .ok (.xorImm d a i9)
  | 43 => .ok (.not d a)
  | _ => .error .illegalInstruction

/-- The memory operations, `w[9:7]` (R77, R78). -/
def decodeMemory (w : Word) : Except DecodeError Instr :=
  let r := regField w 10
  let a := regField w 15
  let i17 := w.extractLsb' 15 17
  match (w.extractLsb' 7 3).toNat with
  | 0 => .ok (.ldr r a)
  | 1 => .ok (.ldrImm r i17)
  | 2 => .ok (.str r a)
  | 3 => .ok (.strImm r i17)
  | 4 => .ok (.push r)
  | 5 => .ok (.pop r)
  | _ => .error .illegalInstruction

/-- The Jump code (R79, R80): four forms, chosen by the tag; E1 has no return-from-interrupt jump. -/
def decodeJump (tag : Option FormTag) (w : Word) : Except DecodeError Instr :=
  let c := w.extractLsb' 0 5
  let r := regField w 9
  let i23 := w.extractLsb' 9 23
  match tag with
  | some ⟨.reg, .normal⟩ => .ok (.jmp c r)
  | some ⟨.imm, .normal⟩ => .ok (.jmpImm c i23)
  | some ⟨.reg, .subroutine⟩ => .ok (.jmps c r)
  | some ⟨.imm, .subroutine⟩ => .ok (.jmpsImm c i23)
  | some ⟨_, .interruptReturn⟩ => .error .noFormTag
  | none => .error .noFormTag

/-- The control operations, `w[8:7]` (R79, R80). -/
def decodeControl (tag : Option FormTag) (w : Word) : Except DecodeError Instr :=
  match (w.extractLsb' 7 2).toNat with
  | 0 => decodeJump tag w
  | 1 => .ok (.sih (regField w 9))
  | 2 =>
    match tag with
    | some ⟨.reg, _⟩ => .ok (.int (regField w 9))
    | some ⟨.imm, _⟩ => .ok (.intImm (w.extractLsb' 9 4))
    | none => .error .noFormTag
  | _ => .ok .ijmp

/-- The graphics operations, `w[8:7]` (R82, R83); every GLOD word is the register form (R86). -/
def decodeGraphics (tag : Option FormTag) (w : Word) : Except DecodeError Instr :=
  let a := regField w 9
  let b := regField w 14
  match (w.extractLsb' 7 2).toNat with
  | 0 => .ok (.glod a b (regField w 19))
  | 1 => .ok (.blitmem a b)
  | 2 =>
    match tag with
    | some ⟨.reg, _⟩ => .ok (.blitdims a b)
    | some ⟨.imm, _⟩ => .ok (.blitdimsImm (w.extractLsb' 9 7) (w.extractLsb' 16 7))
    | none => .error .noFormTag
  | _ =>
    match tag with
    | some ⟨.reg, _⟩ => .ok (.blit a b)
    | some ⟨.imm, _⟩ => .ok (.blitImm (w.extractLsb' 9 4) (w.extractLsb' 13 8))
    | none => .error .noFormTag

/-- Decoding a fetched word (R73), given the tag FORMSEL has for it, if any. -/
def decode (tag : Option FormTag) (w : Word) : Except DecodeError Instr :=
  match (w.extractLsb' 5 2).toNat with
  | 0 => decodeAlu w
  | 1 => decodeMemory w
  | 2 => decodeControl tag w
  | _ => decodeGraphics tag w

/-- The word of four bytes, the first the least significant (20_memory.md R49, R53). -/
def wordOfBytes (b0 b1 b2 b3 : Byte) : Word := b3 ++ b2 ++ b1 ++ b0

/-- The bytes of a word, least significant first (R49). -/
def bytesOfWord (w : Word) : List Byte :=
  [w.extractLsb' 0 8, w.extractLsb' 8 8, w.extractLsb' 16 8, w.extractLsb' 24 8]

/-- The instruction at the head of a byte sequence, and the bytes after it. -/
def decodeBytes (tag : Option FormTag) : List Byte → Except DecodeError (Instr × List Byte)
  | b0 :: b1 :: b2 :: b3 :: rest =>
    match decode tag (wordOfBytes b0 b1 b2 b3) with
    | .ok i => .ok (i, rest)
    | .error e => .error e
  | _ => .error .truncated

/-! ### The encoder (R94): each format is the sum of its fields, each at its place. Not Used bits are 0 (R88), the
Condition of a non-jump is NS (R72). -/

/-- The condition NS, 11111 (10_state.md R22). -/
def nsCode : Code := 31

/-- The common header (R70): Condition, Type and Operation. -/
def encHead (c : Code) (type op : Nat) : Nat := c.toNat + type * 2 ^ 5 + op * 2 ^ 7

/-- Format A-RRR. -/
def encRRR (op : Nat) (d a b : Reg) : Word :=
  BitVec.ofNat 32 (encHead nsCode 0 op + d.val * 2 ^ 13 + a.val * 2 ^ 18 + b.val * 2 ^ 23)

/-- Format A-RRI. -/
def encRRI (op : Nat) (d a : Reg) (i : BitVec 9) : Word :=
  BitVec.ofNat 32 (encHead nsCode 0 op + d.val * 2 ^ 13 + a.val * 2 ^ 18 + i.toNat * 2 ^ 23)

/-- Formats A-MV, A-CMP, A-SHR, A-NOT. -/
def encRR (op : Nat) (d a : Reg) : Word :=
  BitVec.ofNat 32 (encHead nsCode 0 op + d.val * 2 ^ 13 + a.val * 2 ^ 18)

/-- Format A-SHI. -/
def encSHI (op : Nat) (d : Reg) (i : BitVec 14) : Word :=
  BitVec.ofNat 32 (encHead nsCode 0 op + d.val * 2 ^ 13 + i.toNat * 2 ^ 18)

/-- Format M-RR. -/
def encMRR (op : Nat) (r a : Reg) : Word :=
  BitVec.ofNat 32 (encHead nsCode 1 op + r.val * 2 ^ 10 + a.val * 2 ^ 15)

/-- Format M-RI. -/
def encMRI (op : Nat) (r : Reg) (i : BitVec 17) : Word :=
  BitVec.ofNat 32 (encHead nsCode 1 op + r.val * 2 ^ 10 + i.toNat * 2 ^ 15)

/-- Format M-R. -/
def encMR (op : Nat) (r : Reg) : Word :=
  BitVec.ofNat 32 (encHead nsCode 1 op + r.val * 2 ^ 10)

/-- Format C-R. -/
def encCR (op : Nat) (c : Code) (r : Reg) : Word :=
  BitVec.ofNat 32 (encHead c 2 op + r.val * 2 ^ 9)

/-- Format C-I23. -/
def encCI (op : Nat) (c : Code) (i : BitVec 23) : Word :=
  BitVec.ofNat 32 (encHead c 2 op + i.toNat * 2 ^ 9)

/-- Format C-I4. -/
def encCI4 (op : Nat) (code : BitVec 4) : Word :=
  BitVec.ofNat 32 (encHead nsCode 2 op + code.toNat * 2 ^ 9)

/-- Format C-0. -/
def encC0 (op : Nat) : Word :=
  BitVec.ofNat 32 (encHead nsCode 2 op)

/-- Format G-RRR. -/
def encGRRR (op : Nat) (a b c : Reg) : Word :=
  BitVec.ofNat 32 (encHead nsCode 3 op + a.val * 2 ^ 9 + b.val * 2 ^ 14 + c.val * 2 ^ 19)

/-- Format G-RR. -/
def encGRR (op : Nat) (a b : Reg) : Word :=
  BitVec.ofNat 32 (encHead nsCode 3 op + a.val * 2 ^ 9 + b.val * 2 ^ 14)

/-- Format G-I77. -/
def encGI77 (op : Nat) (w h : BitVec 7) : Word :=
  BitVec.ofNat 32 (encHead nsCode 3 op + w.toNat * 2 ^ 9 + h.toNat * 2 ^ 16)

/-- Format G-I48. -/
def encGI48 (op : Nat) (o : BitVec 4) (m : BitVec 8) : Word :=
  BitVec.ofNat 32 (encHead nsCode 3 op + o.toNat * 2 ^ 9 + m.toNat * 2 ^ 13)

/-- The word of an instruction (R94). -/
def encode : Instr → Word
  | .addui d a b => encRRR 1 d a b
  | .addsi d a b => encRRR 2 d a b
  | .addf d a b => encRRR 3 d a b
  | .adduiImm d a i => encRRI 4 d a i
  | .addsiImm d a i => encRRI 5 d a i
  | .addfImm d a i => encRRI 6 d a i
  | .subui d a b => encRRR 7 d a b
  | .subsi d a b => encRRR 8 d a b
  | .subf d a b => encRRR 9 d a b
  | .subuiImm d a i => encRRI 10 d a i
  | .subsiImm d a i => encRRI 11 d a i
  | .subfImm d a i => encRRI 12 d a i
  | .divui d a b => encRRR 13 d a b
  | .divsi d a b => encRRR 14 d a b
  | .divf d a b => encRRR 15 d a b
  | .divuiImm d a i => encRRI 16 d a i
  | .divsiImm d a i => encRRI 17 d a i
  | .divfImm d a i => encRRI 18 d a i
  | .mltui d a b => encRRR 19 d a b
  | .mltsi d a b => encRRR 20 d a b
  | .mltf d a b => encRRR 21 d a b
  | .mltuiImm d a i => encRRI 22 d a i
  | .mltsiImm d a i => encRRI 23 d a i
  | .mltfImm d a i => encRRI 24 d a i
  | .mv d a => encRR 25 d a
  | .cmpui a b => encRR 26 a b
  | .cmpsi a b => encRR 27 a b
  | .cmpf a b => encRR 28 a b
  | .asl d a => encRR 29 d a
  | .asr d a => encRR 30 d a
  | .aslImm d i => encSHI 31 d i
  | .asrImm d i => encSHI 32 d i
  | .lsl d a => encRR 33 d a
  | .lslImm d i => encSHI 34 d i
  | .lsr d a => encRR 35 d a
  | .lsrImm d i => encSHI 36 d i
  | .and d a b => encRRR 37 d a b
  | .andImm d a i => encRRI 38 d a i
  | .or d a b => encRRR 39 d a b
  | .orImm d a i => encRRI 40 d a i
  | .xor d a b => encRRR 41 d a b
  | .xorImm d a i => encRRI 42 d a i
  | .not d a => encRR 43 d a
  | .ldr d a => encMRR 0 d a
  | .ldrImm d i => encMRI 1 d i
  | .str r a => encMRR 2 r a
  | .strImm r i => encMRI 3 r i
  | .push r => encMR 4 r
  | .pop d => encMR 5 d
  | .jmp c r => encCR 0 c r
  | .jmpImm c i => encCI 0 c i
  | .jmps c r => encCR 0 c r
  | .jmpsImm c i => encCI 0 c i
  | .sih r => encCR 1 nsCode r
  | .int r => encCR 2 nsCode r
  | .intImm code => encCI4 2 code
  | .ijmp => encC0 3
  | .glod d s n => encGRRR 0 d s n
  | .blitmem s d => encGRR 1 s d
  | .blitdims w h => encGRR 2 w h
  | .blitdimsImm w h => encGI77 2 w h
  | .blit o m => encGRR 3 o m
  | .blitImm o m => encGI48 3 o m

/-- The form tag an assembler records beside the word of an instruction (R92: "the information an assembler has").
Where the operation code has one form only, decoding does not look at it. -/
def formTag : Instr → FormTag
  | .addui _ _ _ => ⟨.reg, .normal⟩
  | .addsi _ _ _ => ⟨.reg, .normal⟩
  | .addf _ _ _ => ⟨.reg, .normal⟩
  | .adduiImm _ _ _ => ⟨.reg, .normal⟩
  | .addsiImm _ _ _ => ⟨.reg, .normal⟩
  | .addfImm _ _ _ => ⟨.reg, .normal⟩
  | .subui _ _ _ => ⟨.reg, .normal⟩
  | .subsi _ _ _ => ⟨.reg, .normal⟩
  | .subf _ _ _ => ⟨.reg, .normal⟩
  | .subuiImm _ _ _ => ⟨.reg, .normal⟩
  | .subsiImm _ _ _ => ⟨.reg, .normal⟩
  | .subfImm _ _ _ => ⟨.reg, .normal⟩
  | .divui _ _ _ => ⟨.reg, .normal⟩
  | .divsi _ _ _ => ⟨.reg, .normal⟩
  | .divf _ _ _ => ⟨.reg, .normal⟩
  | .divuiImm _ _ _ => ⟨.reg, .normal⟩
  | .divsiImm _ _ _ => ⟨.reg, .normal⟩
  | .divfImm _ _ _ => ⟨.reg, .normal⟩
  | .mltui _ _ _ => ⟨.reg, .normal⟩
  | .mltsi _ _ _ => ⟨.reg, .normal⟩
  | .mltf _ _ _ => ⟨.reg, .normal⟩
  | .mltuiImm _ _ _ => ⟨.reg, .normal⟩
  | .mltsiImm _ _ _ => ⟨.reg, .normal⟩
  | .mltfImm _ _ _ => ⟨.reg, .normal⟩
  | .mv _ _ => ⟨.reg, .normal⟩
  | .cmpui _ _ => ⟨.reg, .normal⟩
  | .cmpsi _ _ => ⟨.reg, .normal⟩
  | .cmpf _ _ => ⟨.reg, .normal⟩
  | .asl _ _ => ⟨.reg, .normal⟩
  | .asr _ _ => ⟨.reg, .normal⟩
  | .aslImm _ _ => ⟨.reg, .normal⟩
  | .asrImm _ _ => ⟨.reg, .normal⟩
  | .lsl _ _ => ⟨.reg, .normal⟩
  | .lslImm _ _ => ⟨.reg, .normal⟩
  | .lsr _ _ => ⟨.reg, .normal⟩
  | .lsrImm _ _ => ⟨.reg, .normal⟩
  | .and _ _ _ => ⟨.reg, .normal⟩
  | .andImm _ _ _ => ⟨.reg, .normal⟩
  | .or _ _ _ => ⟨.reg, .normal⟩
  | .orImm _ _ _ => ⟨.reg, .normal⟩
  | .xor _ _ _ => ⟨.reg, .normal⟩
  | .xorImm _ _ _ => ⟨.reg, .normal⟩
  | .not _ _ => ⟨.reg, .normal⟩
  | .ldr _ _ => ⟨.reg, .normal⟩
  | .ldrImm _ _ => ⟨.reg, .normal⟩
  | .str _ _ => ⟨.reg, .normal⟩
  | .strImm _ _ => ⟨.reg, .normal⟩
  | .push _ => ⟨.reg, .normal⟩
  | .pop _ => ⟨.reg, .normal⟩
  | .jmp _ _ => ⟨.reg, .normal⟩
  | .jmpImm _ _ => ⟨.imm, .normal⟩
  | .jmps _ _ => ⟨.reg, .subroutine⟩
  | .jmpsImm _ _ => ⟨.imm, .subroutine⟩
  | .sih _ => ⟨.reg, .normal⟩
  | .int _ => ⟨.reg, .normal⟩
  | .intImm _ => ⟨.imm, .normal⟩
  | .ijmp => ⟨.reg, .normal⟩
  | .glod _ _ _ => ⟨.reg, .normal⟩
  | .blitmem _ _ => ⟨.reg, .normal⟩
  | .blitdims _ _ => ⟨.reg, .normal⟩
  | .blitdimsImm _ _ => ⟨.imm, .normal⟩
  | .blit _ _ => ⟨.reg, .normal⟩
  | .blitImm _ _ => ⟨.imm, .normal⟩

/-- A tag for a word that stands alone, with no FORMSEL beside it: the register form if the word is one an assembler
writes for it (its Not Used bits are 0, R88), else the immediate form; never a subroutine jump. DESIGN CHOICE, log 4:
only `decodeTableWord` and `withFetchWord` use it; `step` never guesses a form. -/
def tagOfWord (w : Word) : FormTag :=
  let unusedLow := match (w.extractLsb' 5 4).toNat with
    | 2 => 14
    | 10 => 14
    | 11 => 19
    | 15 => 19
    | _ => 32
  if w.toNat < 2 ^ unusedLow then ⟨.reg, .normal⟩ else ⟨.imm, .normal⟩

/-- The instruction the decoder reads from the table word `w` of `nbits` bits (the bits above are 0), laid out as the
program file stores it. -/
def decodeTableWord (nbits w : Nat) : Option Instr :=
  let word : Word := BitVec.ofNat 32 (w % 2 ^ nbits)
  match decodeBytes (some (tagOfWord word)) (bytesOfWord word) with
  | .ok (i, _) => some i
  | .error _ => none

end Sys2Proof
end

