-- ==== Sys2Proof/Machine/E2Syntax.lean ====
section
/-! DEFINITION. The instructions of LEG, edition E2: one constructor per row of spec/opcode_table_e2.json (49). The JMPI
rows carry an address operand that the machine does not use (49 R337). -/

namespace Sys2Proof.Machine

/-- The instructions of edition E2, each operand form its own constructor. -/
inductive InstrE2 where
  /-- ADDU, register direct (49 R310). -/
  | addu (dest op1 op2 : Reg)
  /-- ADDU, immediate (49 R312). -/
  | adduImm (dest op1 : Reg) (imm : BitVec 9)
  /-- ADDS, register direct (49 R311). -/
  | adds (dest op1 op2 : Reg)
  /-- ADDS, immediate (49 R313). -/
  | addsImm (dest op1 : Reg) (imm : BitVec 9)
  /-- SUBU, register direct (49 R314). -/
  | subu (dest op1 op2 : Reg)
  /-- SUBU, immediate (49 R316). -/
  | subuImm (dest op1 : Reg) (imm : BitVec 9)
  /-- SUBS, register direct (49 R315). -/
  | subs (dest op1 op2 : Reg)
  /-- SUBS, immediate (49 R317). -/
  | subsImm (dest op1 : Reg) (imm : BitVec 9)
  /-- DIVU, register direct (49 R318). -/
  | divu (dest op1 op2 : Reg)
  /-- DIVU, immediate (49 R320). -/
  | divuImm (dest op1 : Reg) (imm : BitVec 9)
  /-- DIVS, register direct (49 R319). -/
  | divs (dest op1 op2 : Reg)
  /-- DIVS, immediate (49 R321). -/
  | divsImm (dest op1 : Reg) (imm : BitVec 9)
  /-- MLTU, register direct (49 R322). -/
  | mltu (dest op1 op2 : Reg)
  /-- MLTU, immediate (49 R324). -/
  | mltuImm (dest op1 : Reg) (imm : BitVec 9)
  /-- MLTS, register direct (49 R323). -/
  | mlts (dest op1 op2 : Reg)
  /-- MLTS, immediate (49 R325). -/
  | mltsImm (dest op1 : Reg) (imm : BitVec 9)
  /-- MV (49 R326). -/
  | mv (dest src : Reg)
  /-- CMP (49 R327). -/
  | cmp (op1 op2 : Reg)
  /-- ASL, register direct (49 R328). -/
  | asl (dest op1 : Reg)
  /-- ASL, immediate (49 R340). -/
  | aslImm (dest : Reg) (imm : BitVec 14)
  /-- ASR, register direct (49 R329). -/
  | asr (dest op1 : Reg)
  /-- ASR, immediate (49 R341). -/
  | asrImm (dest : Reg) (imm : BitVec 14)
  /-- LSL, register direct (49 R342). -/
  | lsl (dest op1 : Reg)
  /-- LSL, immediate (49 R343). -/
  | lslImm (dest : Reg) (imm : BitVec 14)
  /-- LSR, register direct (49 R344). -/
  | lsr (dest op1 : Reg)
  /-- LSR, immediate (49 R345). -/
  | lsrImm (dest : Reg) (imm : BitVec 14)
  /-- AND, register direct (49 R346). -/
  | and (dest op1 op2 : Reg)
  /-- AND, immediate (49 R347). -/
  | andImm (dest op1 : Reg) (imm : BitVec 9)
  /-- OR, register direct (49 R348). -/
  | or (dest op1 op2 : Reg)
  /-- OR, immediate (49 R349). -/
  | orImm (dest op1 : Reg) (imm : BitVec 9)
  /-- XOR, register direct (49 R350). -/
  | xor (dest op1 op2 : Reg)
  /-- XOR, immediate (49 R351). -/
  | xorImm (dest op1 : Reg) (imm : BitVec 9)
  /-- NOT (49 R352). -/
  | not (dest op1 : Reg)
  /-- LDR, register direct (49 R353). -/
  | ldr (dest addr : Reg)
  /-- LDR, immediate (49 R354). -/
  | ldrImm (dest : Reg) (imm : BitVec 17)
  /-- STR, register direct (49 R355). -/
  | str (src addr : Reg)
  /-- STR, immediate (49 R356). -/
  | strImm (src : Reg) (imm : BitVec 17)
  /-- PUSH (49 R357). -/
  | push (src : Reg)
  /-- POP (49 R358). -/
  | pop (dest : Reg)
  /-- HALT (49 R331). -/
  | halt
  /-- JMP, register direct (49 R333). -/
  | jmp (cond : Code) (addr : Reg)
  /-- JMP, immediate (49 R334). -/
  | jmpImm (cond : Code) (imm : BitVec 24)
  /-- JMPS, register direct (49 R335). -/
  | jmps (cond : Code) (addr : Reg)
  /-- JMPS, immediate (49 R336). -/
  | jmpsImm (cond : Code) (imm : BitVec 24)
  /-- JMPI, register direct (49 R337). -/
  | jmpi (cond : Code) (addr : Reg)
  /-- JMPI, immediate (49 R337). -/
  | jmpiImm (cond : Code) (imm : BitVec 24)
  /-- GLOD (49 R359). -/
  | glod (dest src len : Reg)
  /-- BLITMEM (49 R361). -/
  | blitmem (src dest : Reg)
  /-- BLITDIMS, register direct (49 R362). -/
  | blitdims (width height : Reg)
  /-- BLITDIMS, immediate (49 R363). -/
  | blitdimsImm (width height : BitVec 7)
  /-- BLIT, register direct (49 R364). -/
  | blit (op mask : Reg)
  /-- BLIT, immediate (49 R365). -/
  | blitImm (op : BitVec 4) (mask : BitVec 8)
deriving DecidableEq, Repr

end Sys2Proof.Machine
end

