-- ==== Sys2Proof/Machine/E2Decode.lean ====
section
/-! DEFINITION. The E2 decoder and encoder (49 R305 to R308, R332): the formats of E1 with E2's type codes and operation
codes, a Jump whose register is bits 12:8 and whose offset is 24 bits, and NS = 00000. Log 22, 25. -/

namespace Sys2Proof.Machine

/-- The ALU operations of E2, `w[12:7]` (49 R306); every value the table skips is unassigned (49 R307). -/
def decodeAluE2 (w : Word) : Except DecodeError InstrE2 :=
  let d := regField w 13
  let a := regField w 18
  let b := regField w 23
  let i9 := w.extractLsb' 23 9
  let i14 := w.extractLsb' 18 14
  match (w.extractLsb' 7 6).toNat with
  | 1 => .ok (.addu d a b)
  | 2 => .ok (.adds d a b)
  | 3 => .ok (.adduImm d a i9)
  | 4 => .ok (.addsImm d a i9)
  | 5 => .ok (.subu d a b)
  | 6 => .ok (.subs d a b)
  | 7 => .ok (.subuImm d a i9)
  | 8 => .ok (.subsImm d a i9)
  | 9 => .ok (.divu d a b)
  | 10 => .ok (.divs d a b)
  | 11 => .ok (.divuImm d a i9)
  | 12 => .ok (.divsImm d a i9)
  | 13 => .ok (.mltu d a b)
  | 15 => .ok (.mlts d a b)
  | 16 => .ok (.mltuImm d a i9)
  | 17 => .ok (.mltsImm d a i9)
  | 18 => .ok (.mv d a)
  | 19 => .ok (.cmp d a)
  | 20 => .ok (.asl d a)
  | 21 => .ok (.asr d a)
  | 23 => .ok (.aslImm d i14)
  | 24 => .ok (.asrImm d i14)
  | 25 => .ok (.lsl d a)
  | 26 => .ok (.lslImm d i14)
  | 27 => .ok (.lsr d a)
  | 28 => .ok (.lsrImm d i14)
  | 29 => .ok (.and d a b)
  | 31 => .ok (.andImm d a i9)
  | 32 => .ok (.or d a b)
  | 33 => .ok (.orImm d a i9)
  | 34 => .ok (.xor d a b)
  | 35 => .ok (.xorImm d a i9)
  | 36 => .ok (.not d a)
  | _ => .error .illegalInstruction

/-- The memory operations of E2: the codes of E1 (49 R305). -/
def decodeMemoryE2 (w : Word) : Except DecodeError InstrE2 :=
  let r := regField w 10
  let a := regField w 15
  let i17 := w.extractLsb' 15 17
  match (w.extractLsb' 7 3).toNat with
  | 0 => .ok (.ldr r a)
  | 1 => .ok (.ldrImm r i17)
  | 2 => .ok (.str r a)
  | 3 => .ok (.strImm r i17)
  | 4 => .ok (.push r)
  | 5 => .ok (.pop r)
  | _ => .error .illegalInstruction

/-- The control operations of E2, the one bit `w[7]` (49 R305): HALT, or a Jump whose form the tag gives (49 R332). -/
def decodeControlE2 (tag : Option FormTag) (w : Word) : Except DecodeError InstrE2 :=
  let c := w.extractLsb' 0 5
  let r := regField w 8
  let i24 := w.extractLsb' 8 24
  if w.getLsbD 7 then
    match tag with
    | some ⟨.reg, .normal⟩ => .ok (.jmp c r)
    | some ⟨.imm, .normal⟩ => .ok (.jmpImm c i24)
    | some ⟨.reg, .subroutine⟩ => .ok (.jmps c r)
    | some ⟨.imm, .subroutine⟩ => .ok (.jmpsImm c i24)
    | some ⟨.reg, .interruptReturn⟩ => .ok (.jmpi c r)
    | some ⟨.imm, .interruptReturn⟩ => .ok (.jmpiImm c i24)
    | none => .error .noFormTag
  else .ok .halt

/-- The graphics operations of E2: the codes of E1 (49 R305, R359 to R365). -/
def decodeGraphicsE2 (tag : Option FormTag) (w : Word) : Except DecodeError InstrE2 :=
  let a := regField w 9
  let b := regField w 14
  match (w.extractLsb' 7 2).toNat with
  | 0 => .ok (.glod a b (regField w 19))
  | 1 => .ok (.blitmem a b)
  | 2 =>
    match tag with
    | some ⟨.reg, _⟩ => .ok (.blitdims a b)
    | some ⟨.imm, _⟩ => .ok (.blitdimsImm (w.extractLsb' 9 7) (w.extractLsb' 16 7))
    | none => .error .noFormTag
  | _ =>
    match tag with
    | some ⟨.reg, _⟩ => .ok (.blit a b)
    | some ⟨.imm, _⟩ => .ok (.blitImm (w.extractLsb' 9 4) (w.extractLsb' 13 8))
    | none => .error .noFormTag

/-- Decoding a fetched word in E2 (49 R305), given the tag FORMSEL has for it, if any. -/
def decodeE2 (tag : Option FormTag) (w : Word) : Except DecodeError InstrE2 :=
  match (w.extractLsb' 5 2).toNat with
  | 0 => decodeControlE2 tag w
  | 1 => decodeAluE2 w
  | 2 => decodeMemoryE2 w
  | _ => decodeGraphicsE2 tag w

/-! ### The encoder (30_encoding.md R94, with the codes of 49 R305, R306, R308) -/

/-- The common header of E2 (49 R308): Condition, Type and Operation. -/
def e2Head (c : Code) (type op : Nat) : Nat := c.toNat + type * 2 ^ 5 + op * 2 ^ 7

/-- Format A-RRR. -/
def e2RRR (op : Nat) (d a b : Reg) : Word :=
  BitVec.ofNat 32 (e2Head 0 1 op + d.val * 2 ^ 13 + a.val * 2 ^ 18 + b.val * 2 ^ 23)

/-- Format A-RRI. -/
def e2RRI (op : Nat) (d a : Reg) (i : BitVec 9) : Word :=
  BitVec.ofNat 32 (e2Head 0 1 op + d.val * 2 ^ 13 + a.val * 2 ^ 18 + i.toNat * 2 ^ 23)

/-- Formats A-MV, A-CMP, A-SHR, A-NOT. -/
def e2RR (op : Nat) (d a : Reg) : Word :=
  BitVec.ofNat 32 (e2Head 0 1 op + d.val * 2 ^ 13 + a.val * 2 ^ 18)

/-- Format A-SHI. -/
def e2SHI (op : Nat) (d : Reg) (i : BitVec 14) : Word :=
  BitVec.ofNat 32 (e2Head 0 1 op + d.val * 2 ^ 13 + i.toNat * 2 ^ 18)

/-- Format M-RR. -/
def e2MRR (op : Nat) (r a : Reg) : Word :=
  BitVec.ofNat 32 (e2Head 0 2 op + r.val * 2 ^ 10 + a.val * 2 ^ 15)

/-- Format M-RI. -/
def e2MRI (op : Nat) (r : Reg) (i : BitVec 17) : Word :=
  BitVec.ofNat 32 (e2Head 0 2 op + r.val * 2 ^ 10 + i.toNat * 2 ^ 15)

/-- Format M-R. -/
def e2MR (op : Nat) (r : Reg) : Word :=
  BitVec.ofNat 32 (e2Head 0 2 op + r.val * 2 ^ 10)

/-- The register Jump. -/
def e2JR (c : Code) (r : Reg) : Word :=
  BitVec.ofNat 32 (e2Head c 0 1 + r.val * 2 ^ 8)

/-- The immediate Jump. -/
def e2JI (c : Code) (i : BitVec 24) : Word :=
  BitVec.ofNat 32 (e2Head c 0 1 + i.toNat * 2 ^ 8)

/-- Format G-RRR. -/
def e2GRRR (op : Nat) (a b c : Reg) : Word :=
  BitVec.ofNat 32 (e2Head 0 3 op + a.val * 2 ^ 9 + b.val * 2 ^ 14 + c.val * 2 ^ 19)

/-- Format G-RR. -/
def e2GRR (op : Nat) (a b : Reg) : Word :=
  BitVec.ofNat 32 (e2Head 0 3 op + a.val * 2 ^ 9 + b.val * 2 ^ 14)

/-- Format G-I77. -/
def e2GI77 (op : Nat) (w h : BitVec 7) : Word :=
  BitVec.ofNat 32 (e2Head 0 3 op + w.toNat * 2 ^ 9 + h.toNat * 2 ^ 16)

/-- Format G-I48. -/
def e2GI48 (op : Nat) (o : BitVec 4) (m : BitVec 8) : Word :=
  BitVec.ofNat 32 (e2Head 0 3 op + o.toNat * 2 ^ 9 + m.toNat * 2 ^ 13)

/-- The word of an E2 instruction; the Condition of a non-jump is NS and the Not Used bits are 0. -/
def encodeE2 : InstrE2 → Word
  | .addu d a b => e2RRR 1 d a b
  | .adduImm d a k => e2RRI 3 d a k
  | .adds d a b => e2RRR 2 d a b
  | .addsImm d a k => e2RRI 4 d a k
  | .subu d a b => e2RRR 5 d a b
  | .subuImm d a k => e2RRI 7 d a k
  | .subs d a b => e2RRR 6 d a b
  | .subsImm d a k => e2RRI 8 d a k
  | .divu d a b => e2RRR 9 d a b
  | .divuImm d a k => e2RRI 11 d a k
  | .divs d a b => e2RRR 10 d a b
  | .divsImm d a k => e2RRI 12 d a k
  | .mltu d a b => e2RRR 13 d a b
  | .mltuImm d a k => e2RRI 16 d a k
  | .mlts d a b => e2RRR 15 d a b
  | .mltsImm d a k => e2RRI 17 d a k
  | .mv d r => e2RR 18 d r
  | .cmp a b => e2RR 19 a b
  | .asl d a => e2RR 20 d a
  | .aslImm d k => e2SHI 23 d k
  | .asr d a => e2RR 21 d a
  | .asrImm d k => e2SHI 24 d k
  | .lsl d a => e2RR 25 d a
  | .lslImm d k => e2SHI 26 d k
  | .lsr d a => e2RR 27 d a
  | .lsrImm d k => e2SHI 28 d k
  | .and d a b => e2RRR 29 d a b
  | .andImm d a k => e2RRI 31 d a k
  | .or d a b => e2RRR 32 d a b
  | .orImm d a k => e2RRI 33 d a k
  | .xor d a b => e2RRR 34 d a b
  | .xorImm d a k => e2RRI 35 d a k
  | .not d a => e2RR 36 d a
  | .ldr d p => e2MRR 0 d p
  | .ldrImm d k => e2MRI 1 d k
  | .str r p => e2MRR 2 r p
  | .strImm r k => e2MRI 3 r k
  | .push r => e2MR 4 r
  | .pop d => e2MR 5 d
  | .halt => 0
  | .jmp c p => e2JR c p
  | .jmpImm c k => e2JI c k
  | .jmps c p => e2JR c p
  | .jmpsImm c k => e2JI c k
  | .jmpi c p => e2JR c p
  | .jmpiImm c k => e2JI c k
  | .glod d r n => e2GRRR 0 d r n
  | .blitmem r d => e2GRR 1 r d
  | .blitdims w h => e2GRR 2 w h
  | .blitdimsImm w h => e2GI77 2 w h
  | .blit o m => e2GRR 3 o m
  | .blitImm o m => e2GI48 3 o m

/-- The form tag an assembler records beside the word of an E2 instruction (49 R332). -/
def formTagE2 : InstrE2 → FormTag
  | .addu _ _ _ => ⟨.reg, .normal⟩
  | .adduImm _ _ _ => ⟨.reg, .normal⟩
  | .adds _ _ _ => ⟨.reg, .normal⟩
  | .addsImm _ _ _ => ⟨.reg, .normal⟩
  | .subu _ _ _ => ⟨.reg, .normal⟩
  | .subuImm _ _ _ => ⟨.reg, .normal⟩
  | .subs _ _ _ => ⟨.reg, .normal⟩
  | .subsImm _ _ _ => ⟨.reg, .normal⟩
  | .divu _ _ _ => ⟨.reg, .normal⟩
  | .divuImm _ _ _ => ⟨.reg, .normal⟩
  | .divs _ _ _ => ⟨.reg, .normal⟩
  | .divsImm _ _ _ => ⟨.reg, .normal⟩
  | .mltu _ _ _ => ⟨.reg, .normal⟩
  | .mltuImm _ _ _ => ⟨.reg, .normal⟩
  | .mlts _ _ _ => ⟨.reg, .normal⟩
  | .mltsImm _ _ _ => ⟨.reg, .normal⟩
  | .mv _ _ => ⟨.reg, .normal⟩
  | .cmp _ _ => ⟨.reg, .normal⟩
  | .asl _ _ => ⟨.reg, .normal⟩
  | .aslImm _ _ => ⟨.reg, .normal⟩
  | .asr _ _ => ⟨.reg, .normal⟩
  | .asrImm _ _ => ⟨.reg, .normal⟩
  | .lsl _ _ => ⟨.reg, .normal⟩
  | .lslImm _ _ => ⟨.reg, .normal⟩
  | .lsr _ _ => ⟨.reg, .normal⟩
  | .lsrImm _ _ => ⟨.reg, .normal⟩
  | .and _ _ _ => ⟨.reg, .normal⟩
  | .andImm _ _ _ => ⟨.reg, .normal⟩
  | .or _ _ _ => ⟨.reg, .normal⟩
  | .orImm _ _ _ => ⟨.reg, .normal⟩
  | .xor _ _ _ => ⟨.reg, .normal⟩
  | .xorImm _ _ _ => ⟨.reg, .normal⟩
  | .not _ _ => ⟨.reg, .normal⟩
  | .ldr _ _ => ⟨.reg, .normal⟩
  | .ldrImm _ _ => ⟨.reg, .normal⟩
  | .str _ _ => ⟨.reg, .normal⟩
  | .strImm _ _ => ⟨.reg, .normal⟩
  | .push _ => ⟨.reg, .normal⟩
  | .pop _ => ⟨.reg, .normal⟩
  | .halt => ⟨.reg, .normal⟩
  | .jmp _ _ => ⟨.reg, .normal⟩
  | .jmpImm _ _ => ⟨.imm, .normal⟩
  | .jmps _ _ => ⟨.reg, .subroutine⟩
  | .jmpsImm _ _ => ⟨.imm, .subroutine⟩
  | .jmpi _ _ => ⟨.reg, .interruptReturn⟩
  | .jmpiImm _ _ => ⟨.imm, .interruptReturn⟩
  | .glod _ _ _ => ⟨.reg, .normal⟩
  | .blitmem _ _ => ⟨.reg, .normal⟩
  | .blitdims _ _ => ⟨.reg, .normal⟩
  | .blitdimsImm _ _ => ⟨.imm, .normal⟩
  | .blit _ _ => ⟨.reg, .normal⟩
  | .blitImm _ _ => ⟨.imm, .normal⟩

end Sys2Proof.Machine
end

