-- ==== Sys2Proof/Machine/E2Meanings.lean ====
section
/-! DEFINITION. What the instructions of edition E2 do (49): the shared operations of E1, with E2's compare codes and
matching, HALT, and the conditional return from an interrupt. Log 25. -/

namespace Sys2Proof.Machine

/-- JMPI: when its condition matches, the return from an interrupt; else the pc advances (49 R337). -/
def interruptJump (taken : Bool) (s : State) : Result := if taken then .next s.interruptReturn else .next s.advance

/-- ADDU, register direct (49 R310). -/
def execE2Addu (d a b : Reg) (s : State) : Result := finishArithmetic d (addUnsigned (s.getReg a) (s.getReg b)) s

/-- ADDU, immediate (49 R312). -/
def execE2AdduImm (d a : Reg) (k : BitVec 9) (s : State) : Result :=
  finishArithmetic d (addUnsigned (s.getReg a) (imm9 k)) s

/-- ADDS, register direct (49 R311). -/
def execE2Adds (d a b : Reg) (s : State) : Result := finishArithmetic d (addSigned (s.getReg a) (s.getReg b)) s

/-- ADDS, immediate (49 R313). -/
def execE2AddsImm (d a : Reg) (k : BitVec 9) (s : State) : Result :=
  finishArithmetic d (addSigned (s.getReg a) (imm9 k)) s

/-- SUBU, register direct (49 R314). -/
def execE2Subu (d a b : Reg) (s : State) : Result := finishArithmetic d (subUnsigned (s.getReg a) (s.getReg b)) s

/-- SUBU, immediate (49 R316). -/
def execE2SubuImm (d a : Reg) (k : BitVec 9) (s : State) : Result :=
  finishArithmetic d (subUnsigned (s.getReg a) (imm9 k)) s

/-- SUBS, register direct (49 R315). -/
def execE2Subs (d a b : Reg) (s : State) : Result := finishArithmetic d (subSigned (s.getReg a) (s.getReg b)) s

/-- SUBS, immediate (49 R317). -/
def execE2SubsImm (d a : Reg) (k : BitVec 9) (s : State) : Result :=
  finishArithmetic d (subSigned (s.getReg a) (imm9 k)) s

/-- DIVU, register direct (49 R318). -/
def execE2Divu (d a b : Reg) (s : State) : Result := divide divUnsigned d (s.getReg a) (s.getReg b) s

/-- DIVU, immediate (49 R320). -/
def execE2DivuImm (d a : Reg) (k : BitVec 9) (s : State) : Result := divide divUnsigned d (s.getReg a) (imm9 k) s

/-- DIVS, register direct (49 R319). -/
def execE2Divs (d a b : Reg) (s : State) : Result := divide divSigned d (s.getReg a) (s.getReg b) s

/-- DIVS, immediate (49 R321). -/
def execE2DivsImm (d a : Reg) (k : BitVec 9) (s : State) : Result := divide divSigned d (s.getReg a) (imm9 k) s

/-- MLTU, register direct (49 R322). -/
def execE2Mltu (d a b : Reg) (s : State) : Result := finishArithmetic d (mulUnsigned (s.getReg a) (s.getReg b)) s

/-- MLTU, immediate (49 R324). -/
def execE2MltuImm (d a : Reg) (k : BitVec 9) (s : State) : Result :=
  finishArithmetic d (mulUnsigned (s.getReg a) (imm9 k)) s

/-- MLTS, register direct (49 R323). -/
def execE2Mlts (d a b : Reg) (s : State) : Result := finishArithmetic d (mulSigned (s.getReg a) (s.getReg b)) s

/-- MLTS, immediate (49 R325). -/
def execE2MltsImm (d a : Reg) (k : BitVec 9) (s : State) : Result :=
  finishArithmetic d (mulSigned (s.getReg a) (imm9 k)) s

/-- MV (49 R326). -/
def execE2Mv (d r : Reg) (s : State) : Result := .next (s.writeBack d (s.getReg r))

/-- CMP (49 R327). -/
def execE2Cmp (a b : Reg) (s : State) : Result :=
  finishCompare (compareCodeE2 (s.getReg a).toNat (s.getReg b).toNat) s

/-- ASL, register direct (49 R328). -/
def execE2Asl (d a : Reg) (s : State) : Result := shift shiftAsl d (s.getReg a).toNat s

/-- ASL, immediate (49 R340). -/
def execE2AslImm (d : Reg) (k : BitVec 14) (s : State) : Result := shift shiftAsl d (imm14 k).toNat s

/-- ASR, register direct (49 R329). -/
def execE2Asr (d a : Reg) (s : State) : Result := shift shiftAsr d (s.getReg a).toNat s

/-- ASR, immediate (49 R341). -/
def execE2AsrImm (d : Reg) (k : BitVec 14) (s : State) : Result := shift shiftAsr d (imm14 k).toNat s

/-- LSL, register direct (49 R342). -/
def execE2Lsl (d a : Reg) (s : State) : Result := shift shiftLsl d (s.getReg a).toNat s

/-- LSL, immediate (49 R343). -/
def execE2LslImm (d : Reg) (k : BitVec 14) (s : State) : Result := shift shiftLsl d (imm14 k).toNat s

/-- LSR, register direct (49 R344). -/
def execE2Lsr (d a : Reg) (s : State) : Result := shift shiftLsr d (s.getReg a).toNat s

/-- LSR, immediate (49 R345). -/
def execE2LsrImm (d : Reg) (k : BitVec 14) (s : State) : Result := shift shiftLsr d (imm14 k).toNat s

/-- AND, register direct (49 R346). -/
def execE2And (d a b : Reg) (s : State) : Result := .next (s.writeBack d (s.getReg a &&& s.getReg b))

/-- AND, immediate (49 R347). -/
def execE2AndImm (d a : Reg) (k : BitVec 9) (s : State) : Result := .next (s.writeBack d (s.getReg a &&& imm9 k))

/-- OR, register direct (49 R348). -/
def execE2Or (d a b : Reg) (s : State) : Result := .next (s.writeBack d (s.getReg a ||| s.getReg b))

/-- OR, immediate (49 R349). -/
def execE2OrImm (d a : Reg) (k : BitVec 9) (s : State) : Result := .next (s.writeBack d (s.getReg a ||| imm9 k))

/-- XOR, register direct (49 R350). -/
def execE2Xor (d a b : Reg) (s : State) : Result := .next (s.writeBack d (s.getReg a ^^^ s.getReg b))

/-- XOR, immediate (49 R351). -/
def execE2XorImm (d a : Reg) (k : BitVec 9) (s : State) : Result := .next (s.writeBack d (s.getReg a ^^^ imm9 k))

/-- NOT (49 R352). -/
def execE2Not (d a : Reg) (s : State) : Result := .next (s.writeBack d (~~~ s.getReg a))

/-- LDR, register direct (49 R353). -/
def execE2Ldr (d p : Reg) (s : State) : Result := load d (s.getReg p) s

/-- LDR, immediate (49 R354). -/
def execE2LdrImm (d : Reg) (k : BitVec 17) (s : State) : Result := load d (s.dataAddress k) s

/-- STR, register direct (49 R355). -/
def execE2Str (r p : Reg) (s : State) : Result := store (s.getReg p) (s.getReg r) s

/-- STR, immediate (49 R356). -/
def execE2StrImm (r : Reg) (k : BitVec 17) (s : State) : Result := store (s.dataAddress k) (s.getReg r) s

/-- PUSH (49 R357). -/
def execE2Push (r : Reg) (s : State) : Result := pushWord r s

/-- POP (49 R358). -/
def execE2Pop (d : Reg) (s : State) : Result := popWord d s

/-- HALT (49 R331). -/
def execE2Halt (s : State) : Result := .next { s with halted := true }

/-- JMP, register direct (49 R333). -/
def execE2Jmp (c : Code) (p : Reg) (s : State) : Result := jump (s.condHolds condMatchE2 c) (s.getReg p) s

/-- JMP, immediate (49 R334). -/
def execE2JmpImm (c : Code) (k : BitVec 24) (s : State) : Result :=
  jump (s.condHolds condMatchE2 c) (s.jumpTarget (imm24 k)) s

/-- JMPS, register direct (49 R335). -/
def execE2Jmps (c : Code) (p : Reg) (s : State) : Result :=
  jumpSubroutine (s.condHolds condMatchE2 c) (fun t => t.getReg p) s

/-- JMPS, immediate (49 R336). -/
def execE2JmpsImm (c : Code) (k : BitVec 24) (s : State) : Result :=
  jumpSubroutine (s.condHolds condMatchE2 c) (fun t => t.jumpTarget (imm24 k)) s

/-- JMPI, register direct (49 R337). -/
def execE2Jmpi (c : Code) (_p : Reg) (s : State) : Result := interruptJump (s.condHolds condMatchE2 c) s

/-- JMPI, immediate (49 R337). -/
def execE2JmpiImm (c : Code) (_k : BitVec 24) (s : State) : Result := interruptJump (s.condHolds condMatchE2 c) s

/-- GLOD (49 R359). -/
def execE2Glod (d r n : Reg) (s : State) : Result := glod (s.lowBits d 12) (s.getReg r) (s.lowBits n 12) s

/-- BLITMEM (49 R361). -/
def execE2Blitmem (r d : Reg) (s : State) : Result :=
  .next { s with bsrc := s.lowBits r 12, bdst := s.lowBits d 16, bsrcSet := true, bdstSet := true }.advance

/-- BLITDIMS, register direct (49 R362). -/
def execE2Blitdims (w h : Reg) (s : State) : Result := setDimensions (s.lowBits w 7) (s.lowBits h 7) s

/-- BLITDIMS, immediate (49 R363). -/
def execE2BlitdimsImm (w h : BitVec 7) (s : State) : Result := setDimensions w h s

/-- BLIT, register direct (49 R364). -/
def execE2Blit (o m : Reg) (s : State) : Result := blit (s.lowBits o 4) (s.lowBits m 8) s

/-- BLIT, immediate (49 R365). -/
def execE2BlitImm (o : BitVec 4) (m : BitVec 8) (s : State) : Result := blit o m s

/-- The meaning of every E2 instruction. -/
def execE2 (i : InstrE2) (s : State) : Result :=
  match i with
  | .addu d a b => execE2Addu d a b s
  | .adduImm d a k => execE2AdduImm d a k s
  | .adds d a b => execE2Adds d a b s
  | .addsImm d a k => execE2AddsImm d a k s
  | .subu d a b => execE2Subu d a b s
  | .subuImm d a k => execE2SubuImm d a k s
  | .subs d a b => execE2Subs d a b s
  | .subsImm d a k => execE2SubsImm d a k s
  | .divu d a b => execE2Divu d a b s
  | .divuImm d a k => execE2DivuImm d a k s
  | .divs d a b => execE2Divs d a b s
  | .divsImm d a k => execE2DivsImm d a k s
  | .mltu d a b => execE2Mltu d a b s
  | .mltuImm d a k => execE2MltuImm d a k s
  | .mlts d a b => execE2Mlts d a b s
  | .mltsImm d a k => execE2MltsImm d a k s
  | .mv d r => execE2Mv d r s
  | .cmp a b => execE2Cmp a b s
  | .asl d a => execE2Asl d a s
  | .aslImm d k => execE2AslImm d k s
  | .asr d a => execE2Asr d a s
  | .asrImm d k => execE2AsrImm d k s
  | .lsl d a => execE2Lsl d a s
  | .lslImm d k => execE2LslImm d k s
  | .lsr d a => execE2Lsr d a s
  | .lsrImm d k => execE2LsrImm d k s
  | .and d a b => execE2And d a b s
  | .andImm d a k => execE2AndImm d a k s
  | .or d a b => execE2Or d a b s
  | .orImm d a k => execE2OrImm d a k s
  | .xor d a b => execE2Xor d a b s
  | .xorImm d a k => execE2XorImm d a k s
  | .not d a => execE2Not d a s
  | .ldr d p => execE2Ldr d p s
  | .ldrImm d k => execE2LdrImm d k s
  | .str r p => execE2Str r p s
  | .strImm r k => execE2StrImm r k s
  | .push r => execE2Push r s
  | .pop d => execE2Pop d s
  | .halt => execE2Halt s
  | .jmp c p => execE2Jmp c p s
  | .jmpImm c k => execE2JmpImm c k s
  | .jmps c p => execE2Jmps c p s
  | .jmpsImm c k => execE2JmpsImm c k s
  | .jmpi c p => execE2Jmpi c p s
  | .jmpiImm c k => execE2JmpiImm c k s
  | .glod d r n => execE2Glod d r n s
  | .blitmem r d => execE2Blitmem r d s
  | .blitdims w h => execE2Blitdims w h s
  | .blitdimsImm w h => execE2BlitdimsImm w h s
  | .blit o m => execE2Blit o m s
  | .blitImm o m => execE2BlitImm o m s

end Sys2Proof.Machine
end

