-- ==== Sys2Proof/Machine/Cycle.lean ====
section
/-! DEFINITION. The step cycle (70_reset_and_hazards.md R444): fetch and decode at the pc, execute; the end of a run (R446;
49 R330); the host's moves at an instruction boundary (60_exceptions.md R404). Log 18, 19, 21. -/

namespace Sys2Proof.Machine

/-! ### Fetch and decode -/

/-- The word at the pc: step (2) of R444. It sees every earlier store (20_memory.md R58). -/
def State.fetchWord (s : State) : Word := s.memRead s.pc

/-- FORMSEL at the pc for the word there (30_encoding.md R92). -/
def State.fetchTag (s : State) : Option FormTag := formSel s.params.formsel s.pc s.fetchWord

/-- The model-level fault of a word that does not decode (60_exceptions.md R420). A fetched word is never truncated. -/
def decodeFault (s : State) : DecodeError → Fault
  | .noFormTag => .noFormTag s.pc s.fetchWord
  | .illegalInstruction => .illegalInstruction s.pc s.fetchWord
  | .truncated => .illegalInstruction s.pc s.fetchWord

/-! ### The end of a run -/

/-- The pc points at a taken jump to itself, an E1 JMP of either form (R446, 43_control.md R223). Log 21. -/
def State.atSelfJump (s : State) : Bool :=
  match decode s.fetchTag s.fetchWord with
  | .ok (.jmp c a) => s.condHolds condMatchE1 c && s.getReg a == s.pc
  | .ok (.jmpImm c k) => s.condHolds condMatchE1 c && s.jumpTarget (imm23 k) == s.pc
  | _ => false

/-- What a part of the state reads as. -/
def State.part (s : State) : StatePart → Nat
  | .register r => (s.getReg r).toNat
  | .memory a => (s.memRead a).toNat
  | .screen a => (s.fbRead a).toNat
  | .sprite a => (s.sprRead a).toNat
  | .blitterSource => s.bsrc.toNat
  | .blitterDest => s.bdst.toNat
  | .blitterWidth => s.bw.toNat
  | .blitterHeight => s.bh.toNat
  | .blitterSourceSet => s.bsrcSet.toNat
  | .blitterDestSet => s.bdstSet.toNat
  | .blitterWidthSet => s.bwSet.toNat
  | .blitterHeightSet => s.bhSet.toNat
  | .stepsDone => s.steps

/-- A predicate END holds of the state (R446). -/
def State.satisfies (s : State) : EndOfRun → Bool
  | .never => false
  | .atPc a => s.pc == a
  | .afterSteps n => decide (n ≤ s.steps)
  | .selfJump => s.atSelfJump
  | .equals p v => s.part p == v
  | .atLeast p v => decide (v ≤ s.part p)
  | .complement e => !s.satisfies e
  | .both e f => s.satisfies e && s.satisfies f
  | .either e f => s.satisfies e || s.satisfies f

/-- END of E1, evaluated once at each instruction boundary, before the host moves there (R446). -/
def State.endReached (s : State) : Bool := !s.endPassed && s.satisfies s.params.endOfRun

/-- The run has ended: END in E1, `halted` in E2 (R446; 49 R330, R369). -/
def State.ended (s : State) : Bool :=
  match s.params.edition with
  | .e1 => s.endReached
  | .e2 => s.halted

/-! ### The host's moves -/

/-- The host raises an interrupt at this boundary: the head of its schedule is due (60_exceptions.md R404). -/
def State.hostMoveDue (s : State) : Bool :=
  match s.schedule with
  | [] => false
  | k :: _ => decide (k.atStep ≤ s.steps)

/-- The move: `Enter(code)` of the key, which leaves the schedule whether it is taken or ignored (R402, R404). END is not
evaluated again at this boundary (R446). -/
def State.hostMove (s : State) : State :=
  match s.schedule with
  | [] => s
  | k :: rest => State.enter { s with schedule := rest, endPassed := true } (keyCode k.key)

/-! ### One instruction -/

/-- One more instruction step has completed, and a new boundary is reached. -/
def completed : Result → Result
  | .next t => .next { t with steps := t.steps + 1, endPassed := false }
  | .fault f => .fault f
  | .refused r => .refused r

/-- Steps (1) to (5) of R444, in the edition of the machine. -/
def State.runInstruction (s : State) : Result :=
  match s.params.edition with
  | .e1 =>
    match decode s.fetchTag s.fetchWord with
    | .ok i => completed (exec i s)
    | .error e => .fault (decodeFault s e)
  | .e2 =>
    match decodeE2 s.fetchTag s.fetchWord with
    | .ok i => completed (execE2 i s)
    | .error e => .fault (decodeFault s e)

/-- The machine with the word `w` under its pc, the tag `tag` recorded for that address, in edition E1, its run not
ended and no host move due: the very next step runs the word. Log 4, 5. -/
def State.placeWord (s : State) (w : Word) (tag : FormTag) : State :=
  { s.memWrite s.pc w with
    params := { s.params with
      edition := .e1
      formsel := ⟨some s.pc, none, tag⟩ :: s.params.formsel
      endOfRun := .never }
    schedule := [] }

end Sys2Proof.Machine
end

