-- ==== Sys2Proof/Machine/Step.lean ====
section
/-! DEFINITION. One step of the machine: it stays as it is once the run has ended, makes a host move that is due, and else
runs one instruction (70_reset_and_hazards.md R444, R446, R447). Log 19, 21. -/

namespace Sys2Proof.Machine

/-- One step. -/
def step (s : State) : Host.Outcome State Fault Refusal :=
  if s.ended then .next s
  else if s.hostMoveDue then .next s.hostMove
  else s.runInstruction

/-- The state with a word of spec/opcode_table.json stored where `step` fetches next. Log 4, 5. -/
def State.withFetchWord (s : State) (nbits w : Nat) : State :=
  s.placeWord (BitVec.ofNat 32 (w % 2 ^ nbits)) (tagOfWord (BitVec.ofNat 32 (w % 2 ^ nbits)))

end Sys2Proof.Machine
end

