-- ==== Sys2Proof/Machine/Assembly.lean ====
section
/-! DEFINITION. Assembly lines and the instructions they stand for (30_encoding.md R100 to R106; 49 R302, R303, R367; 92
D28). GLOD immediate is an assembly instruction without a word (30_encoding.md R86, 44_graphics.md R245). Nothing here is
used by `step`. Log 23, 27. -/

namespace Sys2Proof.Machine

/-- An instruction as assembly names it: one that has a word in its edition, or the GLOD immediate form. -/
inductive AsmInstr where
  | e1 (i : Instr)
  | e2 (i : InstrE2)
  | glodImm (dest : BitVec 12) (offset : BitVec 10) (len : BitVec 12)
deriving DecidableEq, Repr

/-- The word an assembler emits; it refuses the GLOD immediate form (`none`; 44_graphics.md R245, 60_exceptions.md R420). -/
def encodeAsm : AsmInstr → Option Word
  | .e1 i => some (encode i)
  | .e2 i => some (encodeE2 i)
  | .glodImm _ _ _ => none

/-- The instruction executed from its assembly form, "for a model that executes assembly directly" (44_graphics.md R245). -/
def execAsm (i : AsmInstr) (s : State) : Result :=
  match i with
  | .e1 j => exec j s
  | .e2 j => execE2 j s
  | .glodImm d k n => execGlodImm d k n s

/-! ### Lines and tokens (R101) -/

/-- The tokens of a line: maximal runs of characters that are no blank, up to a comment. The second argument is the
token being read, reversed. A tab is a blank, and the number sign ends a token it touches: DESIGN CHOICE, log 27. -/
def tokens : List Char → List Char → List (List Char)
  | [], cur => if cur.isEmpty then [] else [cur.reverse]
  | c :: rest, cur =>
    if c = '#' then (if cur.isEmpty then [] else [cur.reverse])
    else if c = ' ' ∨ c = '\t' then (if cur.isEmpty then tokens rest [] else cur.reverse :: tokens rest [])
    else tokens rest (c :: cur)

/-- A line is a label, which is present when the line does not start with a blank, and the tokens after it (R101). -/
structure AsmLine where
  label : Option (List Char)
  body : List (List Char)
deriving DecidableEq, Repr

/-- The line of a text. The label is the first token as it stands: a colon at its end is part of the name. DESIGN CHOICE,
log 27: whether a label ends in a colon is not stated (49 R367). -/
def readLine (line : List Char) : AsmLine :=
  match line with
  | [] => ⟨none, []⟩
  | c :: _ =>
    match tokens line [] with
    | [] => ⟨none, []⟩
    | t :: rest => if c = ' ' ∨ c = '\t' then ⟨none, t :: rest⟩ else ⟨some t, rest⟩

/-! ### Numbers (R102) -/

/-- The value of a digit below 16. A hexadecimal digit may be written in either case: DESIGN CHOICE, log 27, since case is not
stated (91 N13). -/
def digitValue (c : Char) : Option Nat :=
  let n := c.toNat
  if 48 ≤ n ∧ n ≤ 57 then some (n - 48)
  else if 65 ≤ n ∧ n ≤ 70 then some (n - 55)
  else if 97 ≤ n ∧ n ≤ 102 then some (n - 87)
  else none

/-- The value of digits in a base, continuing from `acc`. -/
def digitsFrom (base : Nat) : List Char → Nat → Option Nat
  | [], acc => some acc
  | c :: rest, acc =>
    match digitValue c with
    | some v => if v < base then digitsFrom base rest (acc * base + v) else none
    | none => none

/-- An unsigned number: at least one digit; leading zeros change nothing. Log 27. -/
def unsignedNumber (base : Nat) (cs : List Char) : Option Int :=
  if cs.isEmpty then none else (digitsFrom base cs 0).map Int.ofNat

/-- A signed number: an unsigned one, or a minus sign before one (49 R367: this spec's reading), in hexadecimal and binary
too, whose digits carry no sign bit. Log 27. -/
def signedNumber (base : Nat) : List Char → Option Int
  | '-' :: cs => (unsignedNumber base cs).map Neg.neg
  | cs => unsignedNumber base cs

/-- An immediate literal: the six prefixes of R102, and plain decimal (92 D28). -/
def literal : List Char → Option Int
  | '0' :: 's' :: 'd' :: cs => signedNumber 10 cs
  | '0' :: 's' :: 'x' :: cs => signedNumber 16 cs
  | '0' :: 's' :: 'b' :: cs => signedNumber 2 cs
  | '0' :: 'd' :: cs => unsignedNumber 10 cs
  | '0' :: 'x' :: cs => unsignedNumber 16 cs
  | '0' :: 'b' :: cs => unsignedNumber 2 cs
  | cs => signedNumber 10 cs

/-- A value in a sign-extended field of `n` bits; `none` where the field would not read back as the value. Log 27. -/
def signedField (n : Nat) (v : Int) : Option (BitVec n) :=
  let p := BitVec.ofInt n v
  if p.toInt = v then some p else none

/-- A value in a field of `n` bits that is not extended; `none` where it does not fit. Log 27. -/
def unsignedField (n : Nat) (v : Int) : Option (BitVec n) :=
  let p := BitVec.ofInt n v
  if (p.toNat : Int) = v then some p else none

/-! ### Names -/

/-- The entry of a name in a table. -/
def named {α : Type} (table : List (String × α)) (name : List Char) : Option α :=
  match table with
  | [] => none
  | (k, v) :: rest => if k.toList = name then some v else named rest name

/-- The register aliases (10_state.md R34). -/
def registerAliases : List (String × Reg) :=
  [("INTLR", 26), ("IHDLR", 27), ("PC", 28), ("STS", 29), ("SP", 30), ("LR", 31)]

/-- A register token: `R0` to `R31`, or an alias (R103). Leading zeros of the number change nothing, so `R007` is `R7`: DESIGN
CHOICE, log 27. -/
def registerNamed (cs : List Char) : Option Reg :=
  match cs with
  | 'R' :: digits =>
    match unsignedNumber 10 digits with
    | some v => if h : v.toNat < 32 then some ⟨v.toNat, h⟩ else none
    | none => none
  | _ => named registerAliases cs

/-- The interrupt names, usable where the code of INT is an immediate (R106). -/
def interruptNames : List (String × Int) :=
  [("UPARROW", 0), ("DOWNARROW", 1), ("LEFTARROW", 2), ("RIGHTARROW", 3), ("ENTER", 4), ("ESCAPE", 5), ("SPACE", 6)]

/-- The condition mnemonics of E1, both tables (10_state.md R22); none written means NS (R105). -/
def conditionsE1 : List (String × Code) :=
  [("", ccNS), ("NE", ccNE), ("E", ccE), ("GT", ccGT), ("LT", ccLT), ("GTE", ccGTE), ("LTE", ccLTE), ("OF", ccOF),
   ("Z", ccZ), ("NZ", ccNZ), ("NEG", ccNEG), ("POS", ccPOS), ("NS", ccNS), ("UF", ccNEG), ("NAN", ccNAN),
   ("NM", ccNM), ("INF", ccINF), ("MS", ccMS), ("ES", ccES)]

/-- The condition mnemonics of E2 (49 R303). None written means NS, which R105 says of a bare `JMP` and `JMPS`; that a bare
`JMPI` too is `NSJMPI` is a DESIGN CHOICE, log 27: the spec does not read it (49 R332). -/
def conditionsE2 : List (String × Code) :=
  [("", e2NS), ("NS", e2NS), ("NE", e2NE), ("E", e2E), ("GT", e2GT), ("LT", e2LT), ("GTE", e2GTE), ("LTE", e2LTE),
   ("OF", 8), ("Z", 9), ("NZ", 10), ("NEG", 11), ("POS", 12)]

/-- A jump mnemonic, split at its last `JMP` (R105; 49 R332): the condition part, and the variant. -/
def splitJump (cs : List Char) : Option (List Char × JumpKind) :=
  match cs.reverse with
  | 'S' :: 'P' :: 'M' :: 'J' :: c => some (c.reverse, .subroutine)
  | 'I' :: 'P' :: 'M' :: 'J' :: c => some (c.reverse, .interruptReturn)
  | 'P' :: 'M' :: 'J' :: c => some (c.reverse, .normal)
  | _ => none

/-! ### Operands -/

/-- An operand token: a register selects the register form, any other token the immediate form (R103). -/
inductive AsmOperand where
  | reg (r : Reg)
  | lit (v : Int)
  | name (n : List Char)
deriving DecidableEq, Repr

/-- The operand of a token: a register, else a literal, else a name, in this order. Log 27. -/
def readOperand (cs : List Char) : AsmOperand :=
  match registerNamed cs with
  | some r => .reg r
  | none =>
    match literal cs with
    | some v => .lit v
    | none => .name cs

/-- An immediate address: a literal offset, or a label, which stands for the offset from `base` (R101). Log 27. -/
def offsetOf (labels : List (List Char × Word)) (base : Word) : AsmOperand → Option Int
  | .reg _ => none
  | .lit v => some v
  | .name n => (labels.find? fun l => l.1 == n).map fun l => (l.2 - base).toInt

/-- The code of INT: a literal or an interrupt name (R106). -/
def interruptOperand : AsmOperand → Option Int
  | .reg _ => none
  | .lit v => some v
  | .name n => named interruptNames n

/-! ### Mnemonics of E1 (R104) -/

/-- Register direct, three registers. -/
def threeRegistersE1 : List (String × (Reg → Reg → Reg → Instr)) :=
  [("ADDUI", .addui), ("ADDSI", .addsi), ("ADDF", .addf), ("SUBUI", .subui), ("SUBSI", .subsi), ("SUBF", .subf),
   ("DIVUI", .divui), ("DIVSI", .divsi), ("DIVF", .divf), ("MLTUI", .mltui), ("MLTSI", .mltsi), ("MLTF", .mltf),
   ("AND", .and), ("OR", .or), ("XOR", .xor), ("GLOD", .glod), ("GL0D", .glod)]

/-- Two registers and a 9-bit immediate. -/
def twoRegistersImmE1 : List (String × (Reg → Reg → BitVec 9 → Instr)) :=
  [("ADDUI", .adduiImm), ("ADDSI", .addsiImm), ("ADDF", .addfImm), ("SUBUI", .subuiImm), ("SUBSI", .subsiImm),
   ("SUBF", .subfImm), ("DIVUI", .divuiImm), ("DIVSI", .divsiImm), ("DIVF", .divfImm), ("MLTUI", .mltuiImm),
   ("MLTSI", .mltsiImm), ("MLTF", .mltfImm), ("AND", .andImm), ("OR", .orImm), ("XOR", .xorImm)]

/-- Two registers. -/
def twoRegistersE1 : List (String × (Reg → Reg → Instr)) :=
  [("MV", .mv), ("CMP", .cmpui), ("CMPUI", .cmpui), ("CMPSI", .cmpsi), ("CMPF", .cmpf), ("ASL", .asl), ("ASR", .asr),
   ("LSL", .lsl), ("LSR", .lsr), ("NOT", .not), ("LDR", .ldr), ("STR", .str), ("BLITMEM", .blitmem),
   ("BLITDIMS", .blitdims), ("BLIT", .blit)]

/-- A register and a 14-bit shift amount. -/
def shiftImmE1 : List (String × (Reg → BitVec 14 → Instr)) :=
  [("ASL", .aslImm), ("ASR", .asrImm), ("LSL", .lslImm), ("LSR", .lsrImm)]

/-- A register and a pc-relative address. -/
def dataImmE1 : List (String × (Reg → BitVec 17 → Instr)) := [("LDR", .ldrImm), ("STR", .strImm)]

/-- One register. -/
def oneRegisterE1 : List (String × (Reg → Instr)) :=
  [("PUSH", .push), ("POP", .pop), ("SIH", .sih), ("INT", .int)]

/-- The jumps of E1. -/
def jumpE1 (labels : List (List Char × Word)) (pc : Word) (m : List Char) (op : AsmOperand) : Option Instr := do
  let (c, kind) ← splitJump m
  let c ← named conditionsE1 c
  match kind, op with
  | .normal, .reg r => some (.jmp c r)
  | .subroutine, .reg r => some (.jmps c r)
  | .normal, o => return .jmpImm c (← signedField 23 (← offsetOf labels pc o))
  | .subroutine, o => return .jmpsImm c (← signedField 23 (← offsetOf labels pc o))
  | .interruptReturn, _ => none

/-- The GLOD immediate form (44_graphics.md R245), in either edition (49 R360). -/
def glodImmNamed (m : List Char) (d a n : Int) : Option AsmInstr := do
  if m = "GLOD".toList ∨ m = "GL0D".toList then
    return .glodImm (← unsignedField 12 d) (← signedField 10 a) (← unsignedField 12 n)
  else none

/-- The E1 instruction of a mnemonic and its operands, for a line whose instruction is at `pc`; `none` where an
assembler refuses the line. -/
def instructionE1 (labels : List (List Char × Word)) (pc : Word) (m : List Char) (ops : List AsmOperand) :
    Option AsmInstr :=
  match ops with
  | [] => if m = "IJMP".toList then some (.e1 .ijmp) else none
  | [.reg r] =>
    ((named oneRegisterE1 m).map fun f => .e1 (f r)) <|> (jumpE1 labels pc m (.reg r)).map .e1
  | [o] =>
    if m = "INT".toList then do return .e1 (.intImm (← unsignedField 4 (← interruptOperand o)))
    else (jumpE1 labels pc m o).map .e1
  | [.reg d, .reg a] => (named twoRegistersE1 m).map fun f => .e1 (f d a)
  | [.reg d, o] =>
    (do return .e1 ((← named dataImmE1 m) d (← signedField 17 (← offsetOf labels (pc + 1) o)))) <|>
    (match o with
      | .lit v => do return .e1 ((← named shiftImmE1 m) d (← signedField 14 v))
      | _ => none)
  | [.lit a, .lit b] =>
    if m = "BLITDIMS".toList then do return .e1 (.blitdimsImm (← unsignedField 7 a) (← unsignedField 7 b))
    else if m = "BLIT".toList then do return .e1 (.blitImm (← unsignedField 4 a) (← unsignedField 8 b))
    else none
  | [.reg d, .reg a, .reg b] => (named threeRegistersE1 m).map fun f => .e1 (f d a b)
  | [.reg d, .reg a, .lit v] => do return .e1 ((← named twoRegistersImmE1 m) d a (← signedField 9 v))
  | [.lit d, .lit a, .lit n] => glodImmNamed m d a n
  | _ => none

/-! ### Mnemonics of E2 (49 R302, R310 to R365): the type is `U` or `S`, and `U` where it is left out -/

/-- Register direct, three registers. -/
def threeRegistersE2 : List (String × (Reg → Reg → Reg → InstrE2)) :=
  [("ADDU", .addu), ("ADD", .addu), ("ADDS", .adds), ("SUBU", .subu), ("SUB", .subu), ("SUBS", .subs),
   ("DIVU", .divu), ("DIV", .divu), ("DIVS", .divs), ("MLTU", .mltu), ("MLT", .mltu), ("MLTS", .mlts),
   ("AND", .and), ("OR", .or), ("XOR", .xor), ("GLOD", .glod), ("GL0D", .glod)]

/-- Two registers and a 9-bit immediate. -/
def twoRegistersImmE2 : List (String × (Reg → Reg → BitVec 9 → InstrE2)) :=
  [("ADDU", .adduImm), ("ADD", .adduImm), ("ADDS", .addsImm), ("SUBU", .subuImm), ("SUB", .subuImm),
   ("SUBS", .subsImm), ("DIVU", .divuImm), ("DIV", .divuImm), ("DIVS", .divsImm), ("MLTU", .mltuImm),
   ("MLT", .mltuImm), ("MLTS", .mltsImm), ("AND", .andImm), ("OR", .orImm), ("XOR", .xorImm)]

/-- Two registers; CMPS is refused (49 R327). -/
def twoRegistersE2 : List (String × (Reg → Reg → InstrE2)) :=
  [("MV", .mv), ("CMP", .cmp), ("CMPU", .cmp), ("ASL", .asl), ("ASR", .asr), ("LSL", .lsl), ("LSR", .lsr),
   ("NOT", .not), ("LDR", .ldr), ("STR", .str), ("BLITMEM", .blitmem), ("BLITDIMS", .blitdims), ("BLIT", .blit)]

/-- A register and a 14-bit shift amount. -/
def shiftImmE2 : List (String × (Reg → BitVec 14 → InstrE2)) :=
  [("ASL", .aslImm), ("ASR", .asrImm), ("LSL", .lslImm), ("LSR", .lsrImm)]

/-- A register and a pc-relative address. -/
def dataImmE2 : List (String × (Reg → BitVec 17 → InstrE2)) := [("LDR", .ldrImm), ("STR", .strImm)]

/-- One register. -/
def oneRegisterE2 : List (String × (Reg → InstrE2)) := [("PUSH", .push), ("POP", .pop)]

/-- The jumps of E2 (49 R332). -/
def jumpE2 (labels : List (List Char × Word)) (pc : Word) (m : List Char) (op : AsmOperand) : Option InstrE2 := do
  let (c, kind) ← splitJump m
  let c ← named conditionsE2 c
  match kind, op with
  | .normal, .reg r => some (.jmp c r)
  | .subroutine, .reg r => some (.jmps c r)
  | .interruptReturn, .reg r => some (.jmpi c r)
  | .normal, o => return .jmpImm c (← signedField 24 (← offsetOf labels pc o))
  | .subroutine, o => return .jmpsImm c (← signedField 24 (← offsetOf labels pc o))
  | .interruptReturn, o => return .jmpiImm c (← signedField 24 (← offsetOf labels pc o))

/-- The E2 instruction of a mnemonic and its operands, for a line whose instruction is at `pc`. -/
def instructionE2 (labels : List (List Char × Word)) (pc : Word) (m : List Char) (ops : List AsmOperand) :
    Option AsmInstr :=
  match ops with
  | [] => if m = "HALT".toList then some (.e2 .halt) else none
  | [.reg r] =>
    ((named oneRegisterE2 m).map fun f => .e2 (f r)) <|> (jumpE2 labels pc m (.reg r)).map .e2
  | [o] => (jumpE2 labels pc m o).map .e2
  | [.reg d, .reg a] => (named twoRegistersE2 m).map fun f => .e2 (f d a)
  | [.reg d, o] =>
    (do return .e2 ((← named dataImmE2 m) d (← signedField 17 (← offsetOf labels (pc + 1) o)))) <|>
    (match o with
      | .lit v => do return .e2 ((← named shiftImmE2 m) d (← signedField 14 v))
      | _ => none)
  | [.lit a, .lit b] =>
    if m = "BLITDIMS".toList then do return .e2 (.blitdimsImm (← unsignedField 7 a) (← unsignedField 7 b))
    else if m = "BLIT".toList then do return .e2 (.blitImm (← unsignedField 4 a) (← unsignedField 8 b))
    else none
  | [.reg d, .reg a, .reg b] => (named threeRegistersE2 m).map fun f => .e2 (f d a b)
  | [.reg d, .reg a, .lit v] => do return .e2 ((← named twoRegistersImmE2 m) d a (← signedField 9 v))
  | [.lit d, .lit a, .lit n] => glodImmNamed m d a n
  | _ => none

/-- The instruction of a line in an edition, at address `pc`; `none` where the line holds none or is refused. -/
def assembleLine (edition : Edition) (labels : List (List Char × Word)) (pc : Word) (line : List Char) :
    Option AsmInstr :=
  match (readLine line).body with
  | [] => none
  | m :: rest =>
    match edition with
    | .e1 => instructionE1 labels pc m (rest.map readOperand)
    | .e2 => instructionE2 labels pc m (rest.map readOperand)

end Sys2Proof.Machine
end

