-- ==== Sys2Proof/Machine/Image.lean ====
section
/-! DEFINITION. The host's first move, LoadAndReset (70_reset_and_hazards.md R442, R447): a program image is a little-endian
sequence of words placed from main address 0 (20_memory.md R53; 49 R366). Log 5. -/

namespace Sys2Proof.Machine

/-- The words of a file of whole words, and `none` if bytes are left over. -/
def wordsOfFile : List Byte → Option (List Word)
  | [] => some []
  | b0 :: b1 :: b2 :: b3 :: rest => (wordsOfFile rest).map (wordOfBytes b0 b1 b2 b3 :: ·)
  | _ => none

/-- The words of a program image; refused (`none`) if its length is no multiple of 4 bytes or over 2^34 bytes (R53). -/
def imageWords (file : List Byte) : Option (List Word) :=
  if file.length ≤ 2 ^ 34 then wordsOfFile file else none

/-- Words stored at consecutive main addresses, the first at `a`. -/
def loadWords (m : List Host.Cell) (a : Word) : List Word → List Host.Cell
  | [] => m
  | w :: rest => loadWords (Memory.writeWord m a w) (a + 1) rest

/-- The reset state of an edition (R441; 49 R301). -/
def resetOf : Edition → State
  | .e1 => State.reset
  | .e2 => State.resetE2

/-- MEM_INIT and GFX_INIT (R441): what the memories hold before the image is placed, main memory by bytes as everywhere
(Machine/Memory.lean). An address that is not listed holds 0 (log 6); the memories are finite, so every content is a list. -/
structure InitialContents where
  /-- MEM_INIT. -/
  mem : List Host.Cell
  /-- GFX_INIT of the frame buffer. -/
  fb : List Host.Cell
  /-- GFX_INIT of the sprite library. -/
  spr : List Host.Cell
deriving DecidableEq, Repr

/-- LoadAndReset(image, FORMSEL, parameters) with MEM_INIT, GFX_INIT and the interrupt moves the host will make (R441, R447;
60_exceptions.md R404). -/
def launch (file : List Byte) (p : Params) (init : InitialContents) (moves : List KeyPress) : Option State :=
  (imageWords file).map fun words =>
    { resetOf p.edition with
      mem := loadWords (Memory.fill (2 ^ 34) init.mem) 0 words
      fb := Memory.fill (2 ^ 16) init.fb
      spr := Memory.fill (2 ^ 12) init.spr
      params := p
      schedule := moves }

end Sys2Proof.Machine
end

