-- ==== Sys2Proof/Safety.lean ====
section
/-! DEFINITION. What counts as a safe run, the invariant of the machine, and the vocabulary of the statements: what one
step keeps and what one instruction writes. -/

namespace Sys2Proof.Machine

/-! ### Runs -/

/-- The first `n` steps from `s` meet no fault and no refusal. A model-level fault is a failure, never a good final state
(60_exceptions.md R420). -/
def SafeFor (n : Nat) (s : State) : Prop := ∃ t, Host.Core.run Sys2Proof.core n s = .next t

/-- The machine is between two instructions: its run has not ended and the host makes no move. -/
def State.running (s : State) : Prop := s.ended = false ∧ s.hostMoveDue = false

/-- A FORMSEL rule covers the word `w` at the address `a`: each of the two is the rule's, or the rule covers every one
(30_encoding.md R92). -/
def Covers (r : FormRule) (a w : Word) : Prop := (r.addr = none ∨ r.addr = some a) ∧ (r.word = none ∨ r.word = some w)

/-! ### The invariant -/

/-- The invariant that every step keeps: each memory is in its canonical form and inside its address space (20_memory.md
R41, R46, R47), a Blitter register that is unset holds its reset value (10_state.md R28), and `halted` is a flag of E2 only
(49 R301). -/
structure State.Inv (s : State) : Prop where
  mem_wf : Memory.wf s.mem = true
  mem_below : Memory.below (2 ^ 34) s.mem = true
  fb_wf : Memory.wf s.fb = true
  fb_below : Memory.below (2 ^ 16) s.fb = true
  spr_wf : Memory.wf s.spr = true
  spr_below : Memory.below (2 ^ 12) s.spr = true
  bsrc_unset : s.bsrcSet = false → s.bsrc = 0
  bdst_unset : s.bdstSet = false → s.bdst = 0
  bw_unset : s.bwSet = false → s.bw = 0
  bh_unset : s.bhSet = false → s.bh = 0
  not_halted : s.params.edition = .e1 → s.halted = false

/-! ### What stays -/

/-- Every byte of main memory reads as before. -/
def SameMemory (s t : State) : Prop := ∀ k, Memory.read t.mem k = Memory.read s.mem k

/-- Every byte of main memory outside the four bytes of the word at `a` reads as before, and that word is `v`. -/
def StoresWord (a v : Word) (s t : State) : Prop :=
  t.memRead a = v ∧ ∀ k, (∀ i < 4, k ≠ byteAddr a i) → Memory.read t.mem k = Memory.read s.mem k

/-- Every byte of the frame buffer reads as before. -/
def SameScreen (s t : State) : Prop := ∀ k, Memory.read t.fb k = Memory.read s.fb k

/-- Every byte of the sprite library reads as before. -/
def SameSprites (s t : State) : Prop := ∀ k, Memory.read t.spr k = Memory.read s.spr k

/-- The Blitter registers and their set marks are as before. -/
structure SameBlitter (s t : State) : Prop where
  bsrc : t.bsrc = s.bsrc
  bdst : t.bdst = s.bdst
  bw : t.bw = s.bw
  bh : t.bh = s.bh
  bsrcSet : t.bsrcSet = s.bsrcSet
  bdstSet : t.bdstSet = s.bdstSet
  bwSet : t.bwSet = s.bwSet
  bhSet : t.bhSet = s.bhSet

/-- What no instruction of E1 touches is as before: `halted`, the parameters, the step count, the host's schedule, the
mark of this boundary. -/
structure SameSetting (s t : State) : Prop where
  halted : t.halted = s.halted
  params : t.params = s.params
  steps : t.steps = s.steps
  schedule : t.schedule = s.schedule
  endPassed : t.endPassed = s.endPassed

/-- Every register but the listed ones reads as before; the pc (28) and the status register (29) are registers here. -/
def SameRegistersBut (ds : List Reg) (s t : State) : Prop := ∀ r, r ∉ ds → t.getReg r = s.getReg r

/-- The graphics memories, the Blitter and the setting are as before. -/
structure SameGraphics (s t : State) : Prop where
  screen : SameScreen s t
  sprites : SameSprites s t
  blitter : SameBlitter s t
  setting : SameSetting s t

/-! ### What an instruction writes -/

/-- What register `d` reads after `v` has been written to it: the status register keeps the low six bits
(10_state.md R19, R20). -/
def heldBy (d : Reg) (v : Word) : Word := if d = Reg.sts then (v.setWidth 6).setWidth 32 else v

/-- The only effect is `x[d] <- v`, and the pc advances unless `d` is the pc (10_state.md R13, R18, R20). -/
structure WritesRegister (d : Reg) (v : Word) (s t : State) : Prop where
  value : t.getReg d = heldBy d v
  pc : d ≠ Reg.pc → t.pc = s.pc + 1
  registers : SameRegistersBut [d, Reg.pc] s t
  memory : SameMemory s t
  graphics : SameGraphics s t

/-- The effect of an arithmetic instruction: `x[d] <- v`, then `STS.cc` is open; `STS.IF` is as before, or as the write
to the status register left it (40_alu_arithmetic.md R112, R115). -/
structure WritesArithmetic (d : Reg) (v : Word) (s t : State) : Prop where
  value : d ≠ Reg.sts → t.getReg d = v
  flag : d ≠ Reg.sts → t.intFlag = s.intFlag
  flagWritten : d = Reg.sts → t.intFlag = v.getLsbD 5
  pc : d ≠ Reg.pc → t.pc = s.pc + 1
  registers : SameRegistersBut [d, Reg.pc, Reg.sts] s t
  memory : SameMemory s t
  graphics : SameGraphics s t

/-- The effect of a compare: `STS.cc <- c`, `STS.IF` as before, the pc advances, nothing else (41_alu_general.md R172). -/
structure WritesCode (c : Code) (s t : State) : Prop where
  code : t.code = c
  flag : t.intFlag = s.intFlag
  pc : t.pc = s.pc + 1
  registers : SameRegistersBut [Reg.pc, Reg.sts] s t
  memory : SameMemory s t
  graphics : SameGraphics s t

/-- The effect of a store: the word at `a` becomes `v`, the registers of `ds` may change, the pc advances. -/
structure WritesWord (ds : List Reg) (a v : Word) (s t : State) : Prop where
  stored : StoresWord a v s t
  pc : t.pc = s.pc + 1
  registers : SameRegistersBut (Reg.pc :: ds) s t
  graphics : SameGraphics s t

/-- The effect of a jump: the pc becomes `a`, the registers of `ds` may change, nothing else. -/
structure JumpsTo (ds : List Reg) (a : Word) (s t : State) : Prop where
  pc : t.pc = a
  registers : SameRegistersBut (Reg.pc :: ds) s t
  memory : SameMemory s t
  graphics : SameGraphics s t

/-- The effect of taking an interrupt (60_exceptions.md R405): INTLR holds the pc, the pc is the handler's address, the flag
is set, the mailbox holds the code, nothing else changes. -/
structure EntersHandler (code : BitVec 4) (s t : State) : Prop where
  link : t.intlr = s.pc
  pc : t.pc = s.ihdlr
  flag : t.intFlag = true
  condition : t.code = s.code
  mailbox : StoresWord 0xFFFFFFFF (code.setWidth 32) s t
  registers : SameRegistersBut [Reg.intlr, Reg.pc, Reg.sts] s t
  graphics : SameGraphics s t

/-! ### Correct rounding -/

/-- `r` is the correctly rounded binary32 pattern of the exact value `num / den`, in units of 2^-149 (40_alu_arithmetic.md
R114): an infinity of its sign exactly when its magnitude reaches (2^25 - 1) * 2^252 units, the midpoint past the largest
finite number; below that a finite number to which no finite number is nearer, even where another is equally near. -/
structure NearestNumber (num : Int) (den : Nat) (r : Word) : Prop where
  overflow : (2 ^ 25 - 1) * 2 ^ 252 * den ≤ num.natAbs → r = if num < 0 then 0xFF800000 else 0x7F800000
  finite : num.natAbs < (2 ^ 25 - 1) * 2 ^ 252 * den → fExp r < 255
  nearest : num.natAbs < (2 ^ 25 - 1) * 2 ^ 252 * den → ∀ w : Word, fExp w < 255 →
    (fValue r * den - num).natAbs ≤ (fValue w * den - num).natAbs
  tie : num.natAbs < (2 ^ 25 - 1) * 2 ^ 252 * den → ∀ w : Word, fExp w < 255 →
    (fValue r * den - num).natAbs = (fValue w * den - num).natAbs → fValue w = fValue r ∨ r.getLsbD 0 = false

/-! ### What each instruction names -/

/-- The register an E1 instruction names as its destination, if it has one. -/
def destination : Instr → Option Reg
  | .addui d _ _ => some d
  | .addsi d _ _ => some d
  | .addf d _ _ => some d
  | .adduiImm d _ _ => some d
  | .addsiImm d _ _ => some d
  | .addfImm d _ _ => some d
  | .subui d _ _ => some d
  | .subsi d _ _ => some d
  | .subf d _ _ => some d
  | .subuiImm d _ _ => some d
  | .subsiImm d _ _ => some d
  | .subfImm d _ _ => some d
  | .divui d _ _ => some d
  | .divsi d _ _ => some d
  | .divf d _ _ => some d
  | .divuiImm d _ _ => some d
  | .divsiImm d _ _ => some d
  | .divfImm d _ _ => some d
  | .mltui d _ _ => some d
  | .mltsi d _ _ => some d
  | .mltf d _ _ => some d
  | .mltuiImm d _ _ => some d
  | .mltsiImm d _ _ => some d
  | .mltfImm d _ _ => some d
  | .mv d _ => some d
  | .cmpui _ _ => none
  | .cmpsi _ _ => none
  | .cmpf _ _ => none
  | .asl d _ => some d
  | .asr d _ => some d
  | .aslImm d _ => some d
  | .asrImm d _ => some d
  | .lsl d _ => some d
  | .lslImm d _ => some d
  | .lsr d _ => some d
  | .lsrImm d _ => some d
  | .and d _ _ => some d
  | .andImm d _ _ => some d
  | .or d _ _ => some d
  | .orImm d _ _ => some d
  | .xor d _ _ => some d
  | .xorImm d _ _ => some d
  | .not d _ => some d
  | .ldr d _ => some d
  | .ldrImm d _ => some d
  | .str _ _ => none
  | .strImm _ _ => none
  | .push _ => none
  | .pop d => some d
  | .jmp _ _ => none
  | .jmpImm _ _ => none
  | .jmps _ _ => none
  | .jmpsImm _ _ => none
  | .sih _ => none
  | .int _ => none
  | .intImm _ => none
  | .ijmp => none
  | .glod _ _ _ => none
  | .blitmem _ _ => none
  | .blitdims _ _ => none
  | .blitdimsImm _ _ => none
  | .blit _ _ => none
  | .blitImm _ _ => none

/-- The kinds of instruction that the rules about the whole machine tell apart. -/
inductive Family where
  | arithmetic
  | general
  | compare
  | load
  | store
  | push
  | pop
  | jump
  | subroutineJump
  | setHandler
  | interrupt
  | interruptReturn
  | graphics
deriving DecidableEq, Repr

/-- The kind of an E1 instruction. -/
def family : Instr → Family
  | .addui _ _ _ => .arithmetic
  | .addsi _ _ _ => .arithmetic
  | .addf _ _ _ => .arithmetic
  | .adduiImm _ _ _ => .arithmetic
  | .addsiImm _ _ _ => .arithmetic
  | .addfImm _ _ _ => .arithmetic
  | .subui _ _ _ => .arithmetic
  | .subsi _ _ _ => .arithmetic
  | .subf _ _ _ => .arithmetic
  | .subuiImm _ _ _ => .arithmetic
  | .subsiImm _ _ _ => .arithmetic
  | .subfImm _ _ _ => .arithmetic
  | .divui _ _ _ => .arithmetic
  | .divsi _ _ _ => .arithmetic
  | .divf _ _ _ => .arithmetic
  | .divuiImm _ _ _ => .arithmetic
  | .divsiImm _ _ _ => .arithmetic
  | .divfImm _ _ _ => .arithmetic
  | .mltui _ _ _ => .arithmetic
  | .mltsi _ _ _ => .arithmetic
  | .mltf _ _ _ => .arithmetic
  | .mltuiImm _ _ _ => .arithmetic
  | .mltsiImm _ _ _ => .arithmetic
  | .mltfImm _ _ _ => .arithmetic
  | .mv _ _ => .general
  | .cmpui _ _ => .compare
  | .cmpsi _ _ => .compare
  | .cmpf _ _ => .compare
  | .asl _ _ => .general
  | .asr _ _ => .general
  | .aslImm _ _ => .general
  | .asrImm _ _ => .general
  | .lsl _ _ => .general
  | .lslImm _ _ => .general
  | .lsr _ _ => .general
  | .lsrImm _ _ => .general
  | .and _ _ _ => .general
  | .andImm _ _ _ => .general
  | .or _ _ _ => .general
  | .orImm _ _ _ => .general
  | .xor _ _ _ => .general
  | .xorImm _ _ _ => .general
  | .not _ _ => .general
  | .ldr _ _ => .load
  | .ldrImm _ _ => .load
  | .str _ _ => .store
  | .strImm _ _ => .store
  | .push _ => .push
  | .pop _ => .pop
  | .jmp _ _ => .jump
  | .jmpImm _ _ => .jump
  | .jmps _ _ => .subroutineJump
  | .jmpsImm _ _ => .subroutineJump
  | .sih _ => .setHandler
  | .int _ => .interrupt
  | .intImm _ => .interrupt
  | .ijmp => .interruptReturn
  | .glod _ _ _ => .graphics
  | .blitmem _ _ => .graphics
  | .blitdims _ _ => .graphics
  | .blitdimsImm _ _ => .graphics
  | .blit _ _ => .graphics
  | .blitImm _ _ => .graphics

/-- The E1 instruction whose meaning an E2 instruction keeps (49 section 1, 3, 4, 6); HALT, CMP and the jumps are E2's own. -/
def counterpart : InstrE2 → Option Instr
  | .addu d a b => some (.addui d a b)
  | .adduImm d a k => some (.adduiImm d a k)
  | .adds d a b => some (.addsi d a b)
  | .addsImm d a k => some (.addsiImm d a k)
  | .subu d a b => some (.subui d a b)
  | .subuImm d a k => some (.subuiImm d a k)
  | .subs d a b => some (.subsi d a b)
  | .subsImm d a k => some (.subsiImm d a k)
  | .divu d a b => some (.divui d a b)
  | .divuImm d a k => some (.divuiImm d a k)
  | .divs d a b => some (.divsi d a b)
  | .divsImm d a k => some (.divsiImm d a k)
  | .mltu d a b => some (.mltui d a b)
  | .mltuImm d a k => some (.mltuiImm d a k)
  | .mlts d a b => some (.mltsi d a b)
  | .mltsImm d a k => some (.mltsiImm d a k)
  | .mv d r => some (.mv d r)
  | .cmp _ _ => none
  | .asl d a => some (.asl d a)
  | .aslImm d k => some (.aslImm d k)
  | .asr d a => some (.asr d a)
  | .asrImm d k => some (.asrImm d k)
  | .lsl d a => some (.lsl d a)
  | .lslImm d k => some (.lslImm d k)
  | .lsr d a => some (.lsr d a)
  | .lsrImm d k => some (.lsrImm d k)
  | .and d a b => some (.and d a b)
  | .andImm d a k => some (.andImm d a k)
  | .or d a b => some (.or d a b)
  | .orImm d a k => some (.orImm d a k)
  | .xor d a b => some (.xor d a b)
  | .xorImm d a k => some (.xorImm d a k)
  | .not d a => some (.not d a)
  | .ldr d p => some (.ldr d p)
  | .ldrImm d k => some (.ldrImm d k)
  | .str r p => some (.str r p)
  | .strImm r k => some (.strImm r k)
  | .push r => some (.push r)
  | .pop d => some (.pop d)
  | .halt => none
  | .jmp _ _ => none
  | .jmpImm _ _ => none
  | .jmps _ _ => none
  | .jmpsImm _ _ => none
  | .jmpi _ _ => none
  | .jmpiImm _ _ => none
  | .glod d r n => some (.glod d r n)
  | .blitmem r d => some (.blitmem r d)
  | .blitdims w h => some (.blitdims w h)
  | .blitdimsImm w h => some (.blitdimsImm w h)
  | .blit o m => some (.blit o m)
  | .blitImm o m => some (.blitImm o m)

end Sys2Proof.Machine
end

