-- ==== Sys2Proof/Certificates/Slice0/Obligations.lean ====
section
/-! DEFINITION. The statements about the model, for the provers. A docstring says which rule of spec/ a statement
formalises, or, where it rests on a choice, the log entry of that choice. -/

section

open Sys2Proof Sys2Proof.Machine

/-! ### Encoding -/

/-- Decoding the word of an E1 instruction, with the tag the assembler records beside it, gives the instruction back, for
every operand (30_encoding.md, encoding functions; log 3). -/
def Obligations.DecodeOfEncode : Prop :=
  ∀ i : Instr, decode (some (formTag i)) (encode i) = .ok i

/-- Decoding the word of an E2 instruction, with its tag, gives the instruction back, for every operand (49 section 2;
log 25). -/
def Obligations.DecodeOfEncodeE2 : Prop :=
  ∀ i : InstrE2, decodeE2 (some (formTagE2 i)) (encodeE2 i) = .ok i

/-- The condition bits of a word are read by the jumps only: two E1 words with the same bits 31:5 decode alike unless their
operation code is Jump (30_encoding.md section 1; log 22). -/
def Obligations.ConditionIsIgnoredOutsideJumps : Prop :=
  ∀ (tag : Option FormTag) (v w : Word), v.extractLsb' 5 27 = w.extractLsb' 5 27 →
    ¬ (w.extractLsb' 5 2 = 2 ∧ w.extractLsb' 7 2 = 0) → decode tag v = decode tag w

/-- An E1 word is refused as illegal exactly when its operation code is unassigned: ALU 0 and 44 to 63, Memory 6 and 7
(30_encoding.md sections 2 and 3; log 30); it is refused for want of a tag exactly when its code is Jump, INT, BLITDIMS or BLIT and
FORMSEL has none for it, or a Jump has the tag of a variant E1 does not have (30 section 7; log 3). An E2 word is illegal
exactly when it is ALU 0, 14, 22, 30 or 37 to 63, or Memory 6 or 7 (49 section 2); it is refused for want of a tag exactly
when it is a Jump, BLITDIMS or BLIT and FORMSEL has none for it (49 sections 2, 5 and 6; log 25). No word of either edition
is truncated. -/
def Obligations.RefusedWords : Prop :=
  ∀ (tag : Option FormTag) (w : Word),
    (decode tag w = .error .illegalInstruction ↔
      (w.extractLsb' 5 2 = 0 ∧ ((w.extractLsb' 7 6).toNat = 0 ∨ 44 ≤ (w.extractLsb' 7 6).toNat)) ∨
        (w.extractLsb' 5 2 = 1 ∧ 6 ≤ (w.extractLsb' 7 3).toNat)) ∧
    (decode tag w = .error .noFormTag ↔
      (tag = none ∧
        ((w.extractLsb' 5 2 = 2 ∧ (w.extractLsb' 7 2 = 0 ∨ w.extractLsb' 7 2 = 2)) ∨
          (w.extractLsb' 5 2 = 3 ∧ (w.extractLsb' 7 2 = 2 ∨ w.extractLsb' 7 2 = 3)))) ∨
        (w.extractLsb' 5 2 = 2 ∧ w.extractLsb' 7 2 = 0 ∧
          ∃ m, tag = some ⟨m, .interruptReturn⟩)) ∧
    decode tag w ≠ .error .truncated ∧
    (decodeE2 tag w = .error .illegalInstruction ↔
      (w.extractLsb' 5 2 = 1 ∧
        ((w.extractLsb' 7 6).toNat ∈ [0, 14, 22, 30] ∨ 37 ≤ (w.extractLsb' 7 6).toNat)) ∨
      (w.extractLsb' 5 2 = 2 ∧ 6 ≤ (w.extractLsb' 7 3).toNat)) ∧
    (decodeE2 tag w = .error .noFormTag ↔ tag = none ∧
      ((w.extractLsb' 5 2 = 0 ∧ w.extractLsb' 7 1 = 1) ∨
        (w.extractLsb' 5 2 = 3 ∧ (w.extractLsb' 7 2 = 2 ∨ w.extractLsb' 7 2 = 3)))) ∧
    decodeE2 tag w ≠ .error .truncated

/-- Words of the spec's examples, one or more for each family of either edition, decode to the instructions they are
examples of (30_encoding.md sections 2 to 7 and the examples of 40 to 44 and 49). -/
def Obligations.ExampleWordsDecode : Prop :=
  (∀ tag, decode tag 0x0104609F = .ok (.addui 3 1 2)) ∧
  (∀ tag, decode tag 0x00082D1F = .ok (.cmpui 1 2)) ∧
  (∀ tag, decode tag 0x0010711F = .ok (.lslImm 3 4)) ∧
  (∀ tag, decode tag 0xF804731F = .ok (.andImm 3 1 0x1F0)) ∧
  (∀ tag, decode tag 0x000988BF = .ok (.ldrImm 2 0x13)) ∧
  (∀ tag, decode tag 0x0002053F = .ok (.str 1 4)) ∧
  (∀ tag, decode tag 0x000002DF = .ok (.sih 1)) ∧
  (∀ tag, decode tag 0x0018807F = .ok (.glod 0 2 3)) ∧
  decode (some ⟨.imm, .normal⟩) 0xFFFFFA42 = .ok (.jmpImm 2 0x7FFFFD) ∧
  decode (some ⟨.reg, .normal⟩) 0x00000E5F = .ok (.jmp 31 7) ∧
  decode (some ⟨.reg, .subroutine⟩) 0x00000E5F = .ok (.jmps 31 7) ∧
  decode (some ⟨.imm, .normal⟩) 0x001E07FF = .ok (.blitImm 3 0xF0) ∧
  (∀ tag, decodeE2 tag 0x010460A0 = .ok (.addu 3 1 2)) ∧
  (∀ tag, decodeE2 tag 0x00000000 = .ok .halt) ∧
  decodeE2 (some ⟨.imm, .normal⟩) 0xFFFFFD83 = .ok (.jmpImm 3 0xFFFFFD)

/-- The assembly aliases are exactly the six of 10_state.md R34; `R` and a number below 32 names that register; and both
spellings name the same register. -/
def Obligations.RegisterAliases : Prop :=
  (∀ (name : List Char) (r : Reg), named registerAliases name = some r ↔
    (name = "INTLR".toList ∧ r = 26) ∨ (name = "IHDLR".toList ∧ r = 27) ∨ (name = "PC".toList ∧ r = 28) ∨
      (name = "STS".toList ∧ r = 29) ∨ (name = "SP".toList ∧ r = 30) ∨ (name = "LR".toList ∧ r = 31)) ∧
  (∀ (name : List Char) (r : Reg), named registerAliases name = some r →
    registerNamed name = some r ∧ registerNamed ('R' :: Nat.toDigits 10 r.val) = some r)

/-! ### The step -/

/-- One step of a running machine whose word at the pc decodes to `i`, under the tag FORMSEL has for it, is the meaning of
`i`, `exec` in E1 and `execE2` in E2, with the count of completed instructions raised by one and a new boundary reached
(70_reset_and_hazards.md section 3, 49 section 2; log 18, 19). -/
def Obligations.StepRunsDecodedInstruction : Prop :=
  ∀ s : State, s.running →
    (∀ i : Instr, s.params.edition = .e1 →
      decode (formSel s.params.formsel s.pc (s.memRead s.pc)) (s.memRead s.pc) = .ok i →
      step s = match exec i s with
        | .next t => .next { t with steps := t.steps + 1, endPassed := false }
        | .fault f => .fault f
        | .refused r => .refused r) ∧
    (∀ i : InstrE2, s.params.edition = .e2 →
      decodeE2 (formSel s.params.formsel s.pc (s.memRead s.pc)) (s.memRead s.pc) = .ok i →
      step s = match execE2 i s with
        | .next t => .next { t with steps := t.steps + 1, endPassed := false }
        | .fault f => .fault f
        | .refused r => .refused r)

/-- FORMSEL gives a word the tag of the first rule of its table that covers the word and its address, and none where no rule
does (30_encoding.md section 7; that it is such a table is log 3). A running machine whose word at the pc does not decode under
that tag faults, with the pc and the word in the fault (60_exceptions.md section 4; log 28, 30). -/
def Obligations.StepFaultsOnRefusedWord : Prop :=
  (∀ (table : List FormRule) (a w : Word) (tag : FormTag),
    (formSel table a w = some tag ↔ ∃ before r after, table = before ++ r :: after ∧ r.tag = tag ∧ Covers r a w ∧
      ∀ q ∈ before, ¬ Covers q a w) ∧
    (formSel table a w = none ↔ ∀ r ∈ table, ¬ Covers r a w)) ∧
  ∀ (s : State) (tag : Option FormTag) (w : Word), s.running → s.memRead s.pc = w →
    formSel s.params.formsel s.pc w = tag →
    (s.params.edition = .e1 → decode tag w = .error .illegalInstruction →
      step s = .fault (.illegalInstruction s.pc w)) ∧
    (s.params.edition = .e1 → decode tag w = .error .noFormTag → step s = .fault (.noFormTag s.pc w)) ∧
    (s.params.edition = .e2 → decodeE2 tag w = .error .illegalInstruction →
      step s = .fault (.illegalInstruction s.pc w)) ∧
    (s.params.edition = .e2 → decodeE2 tag w = .error .noFormTag → step s = .fault (.noFormTag s.pc w))

/-- The state the host builds to try a table word runs that word next, whatever the state was, in E1 (log 4, 5). -/
def Obligations.PlacedWordRunsNext : Prop :=
  ∀ (s : State) (nbits w : Nat) (i : Instr), decodeTableWord nbits w = some i →
    step (s.withFetchWord nbits w) = match exec i (s.withFetchWord nbits w) with
      | .next t => .next { t with steps := t.steps + 1, endPassed := false }
      | .fault f => .fault f
      | .refused r => .refused r

/-- A run ends, in E2, exactly when `halted` is set, and in E1 when END holds: the pc is at a given address, a step bound is
reached, a part of the state equals a number or is at least one, and every combination of such predicates; END is not
evaluated a second time at one boundary, after a host move there. The parts are every register by its number, every word of
main memory, every cell of the graphics memories, the Blitter registers and their set marks, and the count of completed
steps; a taken jump to itself is a JMP of either form at the pc whose condition matches and whose target is the pc. A machine whose run has ended stays as it is, however many
steps are counted (70_reset_and_hazards.md section 3; 43_control.md section 3; 49 section 5; that the model's step then
answers the same state, and the list of the predicates, are its choices, log 19, 21). -/
def Obligations.EndedMachineStays : Prop :=
  (∀ (s : State) (n : Nat), s.ended = true → Host.Core.run Sys2Proof.core n s = .next s) ∧
  (∀ s : State, s.params.edition = .e2 → s.ended = s.halted) ∧
  (∀ s : State, s.params.edition = .e1 → s.endPassed = true → s.ended = false) ∧
  (∀ s : State, s.params.edition = .e1 → s.endPassed = false → s.ended = s.satisfies s.params.endOfRun) ∧
  ∀ (s : State) (a : Word) (n v : Nat) (p : StatePart) (e f : EndOfRun),
    s.satisfies .never = false ∧ (s.satisfies (.atPc a) = true ↔ s.pc = a) ∧
    (s.satisfies (.afterSteps n) = true ↔ n ≤ s.steps) ∧
    (s.satisfies (.equals p v) = true ↔ s.part p = v) ∧ (s.satisfies (.atLeast p v) = true ↔ v ≤ s.part p) ∧
    (s.satisfies (.complement e) = true ↔ ¬ s.satisfies e = true) ∧
    (s.satisfies (.both e f) = true ↔ s.satisfies e = true ∧ s.satisfies f = true) ∧
    (s.satisfies (.either e f) = true ↔ s.satisfies e = true ∨ s.satisfies f = true) ∧
    (s.satisfies .selfJump = true ↔ ∃ c : Code, s.condHolds condMatchE1 c = true ∧
      let found := decode (formSel s.params.formsel s.pc (s.memRead s.pc)) (s.memRead s.pc)
      ((∃ r : Reg, found = .ok (.jmp c r) ∧ s.getReg r = s.pc) ∨
        ∃ k : BitVec 23, found = .ok (.jmpImm c k) ∧ s.pc + k.signExtend 32 = s.pc)) ∧
    (∀ (r : Reg) (h : r.val < 26), s.part (.register r) = s.gpr[r.val].toNat) ∧
    s.part (.register 26) = s.intlr.toNat ∧ s.part (.register 27) = s.ihdlr.toNat ∧
    s.part (.register 28) = s.pc.toNat ∧ s.part (.register 29) = s.sts.toNat ∧
    s.part (.register 30) = s.sp.toNat ∧ s.part (.register 31) = s.lr.toNat ∧
    (∀ r : Reg, s.part (.register r) = (s.getReg r).toNat) ∧ (∀ b : Word, s.part (.memory b) = (s.memRead b).toNat) ∧
    (∀ b : BitVec 16, s.part (.screen b) = (Memory.read s.fb b.toNat).toNat) ∧
    (∀ b : BitVec 12, s.part (.sprite b) = (Memory.read s.spr b.toNat).toNat) ∧
    s.part .blitterSource = s.bsrc.toNat ∧ s.part .blitterDest = s.bdst.toNat ∧
    s.part .blitterWidth = s.bw.toNat ∧ s.part .blitterHeight = s.bh.toNat ∧
    s.part .blitterSourceSet = s.bsrcSet.toNat ∧ s.part .blitterDestSet = s.bdstSet.toNat ∧
    s.part .blitterWidthSet = s.bwSet.toNat ∧ s.part .blitterHeightSet = s.bhSet.toNat ∧
    s.part .stepsDone = s.steps

/-- The seven keys have the codes 0 to 6 of 60_exceptions.md section 1; a host move is due exactly when the head of the
schedule names a number of steps that have completed. A host move that is due is a step of its own: the schedule loses its head; the interrupt is entered if the flag is clear
and the handler is set, and else is lost with no other effect; the run does not end between the move and the instruction
after it (60_exceptions.md sections 1 and 2, 70_reset_and_hazards.md section 3; log 19). -/
def Obligations.HostMoveStep : Prop :=
  (keyCode .upArrow = 0 ∧ keyCode .downArrow = 1 ∧ keyCode .leftArrow = 2 ∧ keyCode .rightArrow = 3 ∧
    keyCode .enter = 4 ∧ keyCode .escape = 5 ∧ keyCode .space = 6) ∧
  (∀ s : State, s.hostMoveDue = true ↔ ∃ k rest, s.schedule = k :: rest ∧ k.atStep ≤ s.steps) ∧
  ∀ (s : State) (k : KeyPress) (rest : List KeyPress), s.ended = false → s.schedule = k :: rest →
    k.atStep ≤ s.steps →
    (s.intFlag = false → s.ihdlr ≠ 0xFFFFFFFF →
      ∃ t, step s = .next t ∧ t.schedule = rest ∧ t.ended = false ∧
        EntersHandler (keyCode k.key) { s with schedule := rest, endPassed := true } t) ∧
    ((s.intFlag = true ∨ s.ihdlr = 0xFFFFFFFF) →
      step s = .next { s with schedule := rest, endPassed := true } ∧
        ({ s with schedule := rest, endPassed := true } : State).ended = false)

/-- Every step keeps the invariant of the machine: each memory stays in its canonical form inside its address space, an unset
Blitter register keeps its reset value, and only E2 halts (20_memory.md section 1 and 2; log 6, 7, 8). -/
def Obligations.StepKeepsInvariant : Prop :=
  ∀ s t : State, s.Inv → step s = .next t → t.Inv

/-- The reset states of both editions have the invariant. -/
def Obligations.ResetHasInvariant : Prop := State.reset.Inv ∧ State.resetE2.Inv

/-- No step changes an open parameter (00_scope.md section 4; log 2), and no step refuses. -/
def Obligations.StepKeepsParameters : Prop :=
  (∀ s t : State, step s = .next t → t.params = s.params) ∧ ∀ (s : State) (r : Refusal), step s ≠ .refused r

/-- The registers, the pc and the status register after reset, in each edition (10_state.md section 7, 70_reset_and_hazards.md
section 1; 49 section 1): the values the spec gives; each of the four Blitter registers is
unset. -/
def Obligations.ResetValues : Prop :=
  (∀ r : Reg, State.reset.getReg r =
    if r = Reg.ihdlr then 0xFFFFFFFF else if r = Reg.sts then 0b011111 else 0) ∧
  State.reset.intFlag = false ∧ State.reset.code = 31 ∧
  (∀ r : Reg, State.resetE2.getReg r = if r = Reg.ihdlr then 0xFFFFFFFF else 0) ∧
  State.resetE2.intFlag = false ∧ State.resetE2.code = 0 ∧ State.resetE2.halted = false ∧
  ∀ s ∈ [State.reset, State.resetE2],
    s.bsrcSet = false ∧ s.bdstSet = false ∧ s.bwSet = false ∧ s.bhSet = false

/-- A launch places word `i` of the image at main address `i`, every other byte of main memory reads as MEM_INIT has it, the
frame buffer and the sprite library read as GFX_INIT has them, the registers are those of the edition's reset, and the
invariant holds; an image whose length is no multiple of 4 bytes is refused (20_memory.md section 4, 70_reset_and_hazards.md
sections 1 and 2; log 5, 6). -/
def Obligations.LaunchPlacesImage : Prop :=
  (∀ (file : List Byte) (p : Params) (init : InitialContents) (moves : List KeyPress) (s : State),
    launch file p init moves = some s →
    s.Inv ∧ s.params = p ∧ s.schedule = moves ∧ s.steps = 0 ∧ s.endPassed = false ∧ s.halted = false ∧
    SameBlitter (if p.edition = .e1 then State.reset else State.resetE2) s ∧
    SameRegistersBut [] (if p.edition = .e1 then State.reset else State.resetE2) s ∧
    ∀ k : Nat,
      Memory.read s.mem k =
        (if k < file.length then file.getD k 0 else if k < 2 ^ 34 then Memory.read init.mem k else 0) ∧
      Memory.read s.fb k = (if k < 2 ^ 16 then Memory.read init.fb k else 0) ∧
      Memory.read s.spr k = (if k < 2 ^ 12 then Memory.read init.spr k else 0)) ∧
  (∀ (file : List Byte) (p : Params) (init : InitialContents) (moves : List KeyPress),
    launch file p init moves = none ↔ ¬ (file.length % 4 = 0 ∧ file.length ≤ 2 ^ 34))

/-! ### Memory -/

/-- A stored word is read back whole, every other word reads as before, and no byte outside the word's four changes
(20_memory.md section 1; log 7). -/
def Obligations.WordReadAfterWrite : Prop :=
  ∀ (s : State) (a v : Word), StoresWord a v s (s.memWrite a v) ∧
    ∀ b : Word, b ≠ a → (s.memWrite a v).memRead b = s.memRead b

/-- Two memories in canonical form that read the same are the same list (log 6, 7). -/
def Obligations.CanonicalMemoriesAgree : Prop :=
  ∀ m n : List Host.Cell, Memory.wf m = true → Memory.wf n = true →
    (∀ k, Memory.read m k = Memory.read n k) → m = n

/-! ### Arithmetic (40_alu_arithmetic.md; the wrap and the open status code are log 10, 11) -/

/-- ADDUI, ADDSI, SUBUI, SUBSI, MLTUI, MLTSI, both forms, write the low 32 bits of the exact result; the unsigned and the
signed form write the same bits; a 9-bit immediate is sign-extended in both (40 section 1; log 10, 29). -/
def Obligations.IntegerAddSubMultiply : Prop :=
  ∀ (d a b : Reg) (k : BitVec 9) (s : State),
    (∃ t, exec (.addui d a b) s = .next t ∧ WritesArithmetic d (s.getReg a + s.getReg b) s t) ∧
    (∃ t, exec (.addsi d a b) s = .next t ∧ WritesArithmetic d (s.getReg a + s.getReg b) s t) ∧
    (∃ t, exec (.adduiImm d a k) s = .next t ∧ WritesArithmetic d (s.getReg a + k.signExtend 32) s t) ∧
    (∃ t, exec (.addsiImm d a k) s = .next t ∧ WritesArithmetic d (s.getReg a + k.signExtend 32) s t) ∧
    (∃ t, exec (.subui d a b) s = .next t ∧ WritesArithmetic d (s.getReg a - s.getReg b) s t) ∧
    (∃ t, exec (.subsi d a b) s = .next t ∧ WritesArithmetic d (s.getReg a - s.getReg b) s t) ∧
    (∃ t, exec (.subuiImm d a k) s = .next t ∧ WritesArithmetic d (s.getReg a - k.signExtend 32) s t) ∧
    (∃ t, exec (.subsiImm d a k) s = .next t ∧ WritesArithmetic d (s.getReg a - k.signExtend 32) s t) ∧
    (∃ t, exec (.mltui d a b) s = .next t ∧ WritesArithmetic d (s.getReg a * s.getReg b) s t) ∧
    (∃ t, exec (.mltsi d a b) s = .next t ∧ WritesArithmetic d (s.getReg a * s.getReg b) s t) ∧
    (∃ t, exec (.mltuiImm d a k) s = .next t ∧ WritesArithmetic d (s.getReg a * k.signExtend 32) s t) ∧
    (∃ t, exec (.mltsiImm d a k) s = .next t ∧ WritesArithmetic d (s.getReg a * k.signExtend 32) s t)

/-- DIVUI and DIVSI, both forms, by a divisor that is not zero: the unsigned quotient rounded down; the signed quotient
truncated toward zero, and some value for -2^31 / -1, whose quotient does not fit (40 section 1; log 11). -/
def Obligations.IntegerDivision : Prop :=
  ∀ (d a b : Reg) (k : BitVec 9) (s : State),
    (s.getReg b ≠ 0 →
      ∃ t, exec (.divui d a b) s = .next t ∧ WritesArithmetic d (s.getReg a / s.getReg b) s t) ∧
    (k ≠ 0 →
      ∃ t, exec (.divuiImm d a k) s = .next t ∧ WritesArithmetic d (s.getReg a / k.signExtend 32) s t) ∧
    (s.getReg b ≠ 0 → ∃ v t, exec (.divsi d a b) s = .next t ∧ WritesArithmetic d v s t ∧
      (¬ (s.getReg a = 0x80000000 ∧ s.getReg b = 0xFFFFFFFF) →
        v.toInt = (s.getReg a).toInt.tdiv (s.getReg b).toInt)) ∧
    (k ≠ 0 → ∃ v t, exec (.divsiImm d a k) s = .next t ∧ WritesArithmetic d v s t ∧
      (¬ (s.getReg a = 0x80000000 ∧ k = 0x1FF) → v.toInt = (s.getReg a).toInt.tdiv k.toInt))

/-- An integer division by zero, in the register forms where the register reads 0, in the immediate forms where the
immediate is 0, is the model-level fault DivideByZero under DIV_ZERO = fault; under DIV_ZERO = any it writes some value and
ends like every arithmetic instruction (40 section 1, 60_exceptions.md section 4; log 2, 11). -/
def Obligations.DivisionByZero : Prop :=
  ∀ (d a b : Reg) (s : State), ∀ p ∈ [(Instr.divui d a b, s.getReg b), (Instr.divsi d a b, s.getReg b),
      (Instr.divuiImm d a 0, 0), (Instr.divsiImm d a 0, 0)], p.2 = 0 →
    (s.params.divZero = .fault → exec p.1 s = .fault (.divideByZero s.pc)) ∧
    (s.params.divZero = .any → ∃ v t, exec p.1 s = .next t ∧ WritesArithmetic d v s t)

/-- The eight float instructions complete on every operand and write the value of their operation; where IEEE 754 gives a NaN
the value is some NaN; an uninterpreted float unit writes some value (40 section 1; log 13, 14). -/
def Obligations.FloatArithmetic : Prop :=
  ∀ (d a b : Reg) (k : BitVec 9) (s : State),
    let y := if s.params.floatImm = .bits then k.signExtend 32 else fOfInt k.toInt
    ∀ p ∈ [(Instr.addf d a b, fAdd (s.getReg a) (s.getReg b)), (Instr.addfImm d a k, fAdd (s.getReg a) y),
        (Instr.subf d a b, fSub (s.getReg a) (s.getReg b)), (Instr.subfImm d a k, fSub (s.getReg a) y),
        (Instr.divf d a b, fDiv (s.getReg a) (s.getReg b)), (Instr.divfImm d a k, fDiv (s.getReg a) y),
        (Instr.mltf d a b, fMul (s.getReg a) (s.getReg b)), (Instr.mltfImm d a k, fMul (s.getReg a) y)],
      ∃ v t, exec p.1 s = .next t ∧ WritesArithmetic d v s t ∧
        (s.params.floatUnit = .ieee → (∀ r, p.2 = some r → v = r) ∧ (p.2 = none → fIsNaN v = true))

/-- Rounding is to nearest, ties to even, and overflows exactly from the midpoint past the largest finite number: among the
finite patterns none is nearer to `n / d` units than the one chosen, and of two equally near the even one is chosen (40
section 1; log 13). -/
def Obligations.FloatRounding : Prop :=
  ∀ n d : Nat, 0 < d →
    (fRound n d = fInfBits ↔ (2 ^ 25 - 1) * 2 ^ 253 * d ≤ 2 * n) ∧ fRound n d ≤ fInfBits ∧
    (fRound n d < fInfBits → ∀ w : Word, fExp w < 255 →
      ((fMagnitude (fPack false (fRound n d)) * d : Nat) - (n : Int)).natAbs ≤
          ((fMagnitude w * d : Nat) - (n : Int)).natAbs ∧
        (((fMagnitude (fPack false (fRound n d)) * d : Nat) - (n : Int)).natAbs =
            ((fMagnitude w * d : Nat) - (n : Int)).natAbs →
          fMagnitude w = fMagnitude (fPack false (fRound n d)) ∨ fRound n d % 2 = 0))

/-- The sum, the difference, the product and the quotient of finite numbers are the exact ones correctly rounded: an infinity
of the exact sign exactly from the overflow threshold on, and below it the nearest finite number, ties to even; the sign of
a product and of a quotient is the exclusive or of the signs, also where it is zero (40 section 1; log 13). Values are
integers, in units of 2^-149. -/
def Obligations.FloatResultsAreNearest : Prop :=
  ∀ a b : Word, fExp a < 255 → fExp b < 255 →
    (∃ r, fAdd a b = some r ∧ NearestNumber (fValue a + fValue b) 1 r) ∧
    (∃ r, fSub a b = some r ∧ NearestNumber (fValue a - fValue b) 1 r) ∧
    (∃ r, fMul a b = some r ∧ fSign r = (fSign a != fSign b) ∧
      NearestNumber (fValue a * fValue b) (2 ^ 149) r) ∧
    (fIsZero b = false → ∃ r, fDiv a b = some r ∧ fSign r = (fSign a != fSign b) ∧
      NearestNumber ((if fSign b then -1 else 1) * fValue a * 2 ^ 149) (fMagnitude b) r)

/-- The special operands of IEEE 754: a NaN operand gives a NaN; so do inf - inf, 0 * inf, 0 / 0 and inf / inf; every other
operation with an infinity gives the infinity or the zero of its sign; a finite number that is not zero divided by zero is
an infinity of the sign of the quotient; x + -x is +0, and a sum of zeros is -0 only if both are -0; an immediate that
FIMM_MODE = convert converts is the number equal to the signed immediate (40 section 1; log 13, 14). -/
def Obligations.FloatSpecialOperands : Prop :=
  (∀ a b : Word, (fIsNaN a = true ∨ fIsNaN b = true) →
    fAdd a b = none ∧ fSub a b = none ∧ fMul a b = none ∧ fDiv a b = none) ∧
  (∀ a b : Word, fIsInf a = true → fIsInf b = true →
    fAdd a b = (if fSign a = fSign b then some a else none) ∧
    fSub a b = (if fSign a = fSign b then none else some a) ∧
    fMul a b = some (if fSign a = fSign b then 0x7F800000 else 0xFF800000) ∧ fDiv a b = none) ∧
  (∀ a b : Word, fIsInf a = true → fExp b < 255 →
    fAdd a b = some a ∧ fAdd b a = some a ∧ fSub a b = some a ∧ fSub b a = some (fNegate a) ∧
    fDiv a b = some (if fSign a = fSign b then 0x7F800000 else 0xFF800000) ∧
    fDiv b a = some (if fSign a = fSign b then 0 else 0x80000000) ∧
    (fIsZero b = true → fMul a b = none ∧ fMul b a = none) ∧
    (fIsZero b = false → fMul a b = some (if fSign a = fSign b then 0x7F800000 else 0xFF800000) ∧
      fMul b a = some (if fSign a = fSign b then 0x7F800000 else 0xFF800000))) ∧
  (∀ a b : Word, fIsZero a = true → fIsZero b = true → fDiv a b = none ∧
    fAdd a b = some (if fSign a = true ∧ fSign b = true then 0x80000000 else 0) ∧
    fSub a b = some (if fSign a = true ∧ fSign b = false then 0x80000000 else 0)) ∧
  (∀ a b : Word, fExp a < 255 → fIsZero a = false → fIsZero b = true →
    fDiv a b = some (if fSign a = fSign b then 0x7F800000 else 0xFF800000)) ∧
  (∀ a : Word, fExp a < 255 → fAdd a (fNegate a) = some 0 ∧ fSub a a = some 0) ∧
  (∀ n : Nat, fIsNaN (drawnNaN n) = true) ∧
  ∀ k : BitVec 9, fExp (fOfInt k.toInt) < 255 ∧ fValue (fOfInt k.toInt) = k.toInt * 2 ^ 149

/-! ### Move, logic, shifts, compare -/

/-- MV and NOT: 41_alu_general.md R151, R171. -/
def Obligations.MoveAndComplement : Prop :=
  (∀ tag w, w.extractLsb' 5 2 = 0 →
    (w.extractLsb' 7 6 = 25 → decode tag w = .ok (.mv (w.extractLsb' 13 5).toFin (w.extractLsb' 18 5).toFin)) ∧
    (w.extractLsb' 7 6 = 43 → decode tag w = .ok (.not (w.extractLsb' 13 5).toFin (w.extractLsb' 18 5).toFin))) ∧
  encode (.mv 3 1) = 0x00046C9F ∧ encode (.not 3 1) = 0x0004759F ∧
  ∀ (d a : Reg) (s : State),
    (∃ t, exec (.mv d a) s = .next t ∧ WritesRegister d (s.getReg a) s t) ∧
    (∃ t, exec (.not d a) s = .next t ∧ WritesRegister d (~~~ s.getReg a) s t)

/-- AND, OR, XOR, both forms: 41_alu_general.md R165 to R170. -/
def Obligations.BitwiseLogic : Prop :=
  (∀ tag w, w.extractLsb' 5 2 = 0 →
    (w.extractLsb' 7 6 = 37 → decode tag w =
      .ok (.and (w.extractLsb' 13 5).toFin (w.extractLsb' 18 5).toFin (w.extractLsb' 23 5).toFin)) ∧
    (w.extractLsb' 7 6 = 38 → decode tag w =
      .ok (.andImm (w.extractLsb' 13 5).toFin (w.extractLsb' 18 5).toFin (w.extractLsb' 23 9))) ∧
    (w.extractLsb' 7 6 = 39 → decode tag w =
      .ok (.or (w.extractLsb' 13 5).toFin (w.extractLsb' 18 5).toFin (w.extractLsb' 23 5).toFin)) ∧
    (w.extractLsb' 7 6 = 40 → decode tag w =
      .ok (.orImm (w.extractLsb' 13 5).toFin (w.extractLsb' 18 5).toFin (w.extractLsb' 23 9))) ∧
    (w.extractLsb' 7 6 = 41 → decode tag w =
      .ok (.xor (w.extractLsb' 13 5).toFin (w.extractLsb' 18 5).toFin (w.extractLsb' 23 5).toFin)) ∧
    (w.extractLsb' 7 6 = 42 → decode tag w =
      .ok (.xorImm (w.extractLsb' 13 5).toFin (w.extractLsb' 18 5).toFin (w.extractLsb' 23 9)))) ∧
  ∀ (d a b : Reg) (k : BitVec 9) (s : State),
    (∃ t, exec (.and d a b) s = .next t ∧ WritesRegister d (s.getReg a &&& s.getReg b) s t) ∧
    (∃ t, exec (.andImm d a k) s = .next t ∧ WritesRegister d (s.getReg a &&& k.signExtend 32) s t) ∧
    (∃ t, exec (.or d a b) s = .next t ∧ WritesRegister d (s.getReg a ||| s.getReg b) s t) ∧
    (∃ t, exec (.orImm d a k) s = .next t ∧ WritesRegister d (s.getReg a ||| k.signExtend 32) s t) ∧
    (∃ t, exec (.xor d a b) s = .next t ∧ WritesRegister d (s.getReg a ^^^ s.getReg b) s t) ∧
    (∃ t, exec (.xorImm d a k) s = .next t ∧ WritesRegister d (s.getReg a ^^^ k.signExtend 32) s t)

/-- LSL, LSR and ASR, both forms: by 0 the value stays, by 1 to 31 it is the value times 2^n, or divided by 2^n rounded down
as an unsigned or signed number; by 32 or more, or by a negative immediate, some value is written (41_alu_general.md
section on shifts; log 12). -/
def Obligations.Shifts : Prop :=
  ∀ (d a : Reg) (k : BitVec 14) (s : State), ∀ p ∈ [(true, (s.getReg a).toNat), (false, (k.signExtend 32).toNat)],
    let v := s.getReg d
    let n := p.2
    (∃ r t, exec (if p.1 then .lsl d a else .lslImm d k) s = .next t ∧ WritesRegister d r s t ∧
      (n < 32 → r.toNat = v.toNat * 2 ^ n % 2 ^ 32)) ∧
    (∃ r t, exec (if p.1 then .lsr d a else .lsrImm d k) s = .next t ∧ WritesRegister d r s t ∧
      (n < 32 → r.toNat = v.toNat / 2 ^ n)) ∧
    (∃ r t, exec (if p.1 then .asr d a else .asrImm d k) s = .next t ∧ WritesRegister d r s t ∧
      (n < 32 → r.toInt = v.toInt / 2 ^ n))

/-- ASL, both forms: where the signed product of the value and 2^n fits in 32 bits that product is written, and else, or by 32
or more, some value (41_alu_general.md section on shifts; log 12). -/
def Obligations.ArithmeticLeftShift : Prop :=
  ∀ (d a : Reg) (k : BitVec 14) (s : State), ∀ p ∈ [(true, (s.getReg a).toNat), (false, (k.signExtend 32).toNat)],
    ∃ r t, exec (if p.1 then .asl d a else .aslImm d k) s = .next t ∧ WritesRegister d r s t ∧
      (p.2 < 32 → -(2 ^ 31 : Int) ≤ (s.getReg d).toInt * 2 ^ p.2 → (s.getReg d).toInt * 2 ^ p.2 < 2 ^ 31 →
        r.toInt = (s.getReg d).toInt * 2 ^ p.2)

/-- CMPUI and CMPSI write E, GT or LT by the unsigned or the signed order of the operands (41_alu_general.md section 3; that
the result is one of these three codes is the spec's own reading, D11; log 16). -/
def Obligations.IntegerCompare : Prop :=
  (∀ tag w, w.extractLsb' 5 2 = 0 →
    (w.extractLsb' 7 6 = 26 → decode tag w =
      .ok (.cmpui (w.extractLsb' 13 5).toFin (w.extractLsb' 18 5).toFin)) ∧
    (w.extractLsb' 7 6 = 27 → decode tag w =
      .ok (.cmpsi (w.extractLsb' 13 5).toFin (w.extractLsb' 18 5).toFin))) ∧
  encode (.cmpui 1 2) = 0x00082D1F ∧ encode (.cmpsi 1 2) = 0x00082D9F ∧
  ∀ (a b : Reg) (s : State),
    (∃ t, exec (.cmpui a b) s = .next t ∧
      WritesCode (if s.getReg a = s.getReg b then 1 else if (s.getReg b).ult (s.getReg a) then 2 else 3) s t) ∧
    (∃ t, exec (.cmpsi a b) s = .next t ∧
      WritesCode (if s.getReg a = s.getReg b then 1 else if (s.getReg b).slt (s.getReg a) then 2 else 3) s t)

/-- CMPF: NAN if an operand is a NaN, else E, GT or LT by the values, +0 and -0 being equal and an infinity beyond every finite
number (41_alu_general.md, compare; log 13, 16); some code if the float unit is uninterpreted. -/
def Obligations.FloatCompare : Prop :=
  (∀ (a b : Reg) (s : State), ∃ c t, exec (.cmpf a b) s = .next t ∧ WritesCode c s t ∧
    (s.params.floatUnit = .ieee → c =
      if fIsNaN (s.getReg a) || fIsNaN (s.getReg b) then 11
      else if fValue (s.getReg a) = fValue (s.getReg b) then 1
      else if fValue (s.getReg b) < fValue (s.getReg a) then 2 else 3)) ∧
  fValue 0x00000000 = fValue 0x80000000 ∧
  ∀ w : Word, fExp w < 255 → fValue 0xFF800000 < fValue w ∧ fValue w < fValue 0x7F800000

/-! ### Memory instructions -/

/-- LDR, both forms: 42_memory_instructions.md R192, R193. -/
def Obligations.LoadWord : Prop :=
  (∀ tag w, w.extractLsb' 5 2 = 1 →
    (w.extractLsb' 7 3 = 0 → decode tag w = .ok (.ldr (w.extractLsb' 10 5).toFin (w.extractLsb' 15 5).toFin)) ∧
    (w.extractLsb' 7 3 = 1 → decode tag w = .ok (.ldrImm (w.extractLsb' 10 5).toFin (w.extractLsb' 15 17)))) ∧
  encode (.ldr 5 4) = 0x0002143F ∧ encode (.ldrImm 2 19) = 0x000988BF ∧
  ∀ (d a : Reg) (k : BitVec 17) (s : State),
    (∃ t, exec (.ldr d a) s = .next t ∧ WritesRegister d (s.memRead (s.getReg a)) s t) ∧
    (∃ t, exec (.ldrImm d k) s = .next t ∧ WritesRegister d (s.memRead (s.pc + 1 + k.signExtend 32)) s t)

/-- STR, both forms: 42_memory_instructions.md R194, R195. -/
def Obligations.StoreWord : Prop :=
  (∀ tag w, w.extractLsb' 5 2 = 1 →
    (w.extractLsb' 7 3 = 2 → decode tag w = .ok (.str (w.extractLsb' 10 5).toFin (w.extractLsb' 15 5).toFin)) ∧
    (w.extractLsb' 7 3 = 3 → decode tag w = .ok (.strImm (w.extractLsb' 10 5).toFin (w.extractLsb' 15 17)))) ∧
  encode (.str 1 4) = 0x0002053F ∧ encode (.strImm 1 20) = 0x000A05BF ∧
  ∀ (r a : Reg) (k : BitVec 17) (s : State),
    (∃ t, exec (.str r a) s = .next t ∧ WritesWord [] (s.getReg a) (s.getReg r) s t) ∧
    (∃ t, exec (.strImm r k) s = .next t ∧ WritesWord [] (s.pc + 1 + k.signExtend 32) (s.getReg r) s t)

/-- PUSH lowers SP, then stores at the new SP the register as it then reads (42_memory_instructions.md section on the stack;
log 17). -/
def Obligations.PushWord : Prop :=
  ∀ (r : Reg) (s : State), ∃ t, exec (.push r) s = .next t ∧ t.sp = s.sp - 1 ∧
    WritesWord [Reg.sp] (s.sp - 1) (if r = Reg.sp then s.sp - 1 else s.getReg r) s t

/-- POP loads the word at SP, then raises SP, the loaded SP where SP is the destination; a popped pc is the next pc, with no
advance (42_memory_instructions.md section on the stack; log 17). -/
def Obligations.PopWord : Prop :=
  ∀ (d : Reg) (s : State), ∃ t, exec (.pop d) s = .next t ∧
    (d ≠ Reg.sp → t.getReg d = heldBy d (s.memRead s.sp) ∧ t.sp = s.sp + 1) ∧
    (d = Reg.sp → t.sp = s.memRead s.sp + 1) ∧
    (d ≠ Reg.pc → t.pc = s.pc + 1) ∧
    SameRegistersBut [d, Reg.sp, Reg.pc] s t ∧ SameMemory s t ∧ SameGraphics s t

/-- PUSH of one register and POP into another, neither of them SP, restores SP and moves the word, wherever the stack stands
(42_memory_instructions.md section on the stack; log 17). The pushed pc is the address of the PUSH. -/
def Obligations.PushThenPop : Prop :=
  ∀ (a b : Reg) (s t u : State), a ≠ Reg.sp → b ≠ Reg.sp → exec (.push a) s = .next t →
    exec (.pop b) t = .next u → u.sp = s.sp ∧ u.getReg b = heldBy b (s.getReg a)

/-! ### Control -/

/-- The default matching relation, both editions, written out: the condition is NS, or the status is NS, or they are equal, or
the condition is NE, GTE or LTE and the status one of the two codes it covers; a jump's condition `c` matches the machine's
status when the relation holds of `c` and then STS.cc, bits 4:0 of register 29: the default relation, or, where COND_MATCH is
another, given as its pairs, that one (43_control.md section 1, 49 section 1; 00_scope.md section 4; log 15). -/
def Obligations.ConditionMatching : Prop :=
  (∀ c k : Code,
    (condMatchE1 c k = true ↔ c = 31 ∨ k = 31 ∨ c = k ∨ (c = 0 ∧ (k = 2 ∨ k = 3)) ∨ (c = 4 ∧ (k = 2 ∨ k = 1)) ∨
      (c = 5 ∧ (k = 3 ∨ k = 1))) ∧
    (condMatchE2 c k = true ↔ c = 0 ∨ k = 0 ∨ c = k ∨ (c = 1 ∧ (k = 3 ∨ k = 4)) ∨ (c = 5 ∧ (k = 3 ∨ k = 2)) ∨
      (c = 7 ∧ (k = 4 ∨ k = 2)))) ∧
  ∀ (s : State) (c : Code), s.code = (s.getReg 29).extractLsb' 0 5 ∧
    (s.params.condMatch = none → s.condHolds condMatchE1 c = condMatchE1 c s.code ∧
      s.condHolds condMatchE2 c = condMatchE2 c s.code) ∧
    ∀ ps : List (Code × Code), s.params.condMatch = some ps →
      (s.condHolds condMatchE1 c = true ↔ (c, s.code) ∈ ps) ∧ (s.condHolds condMatchE2 c = true ↔ (c, s.code) ∈ ps)

/-- JMP, both forms: 43_control.md R212, R213, with COND_MATCH as the machine's parameters give it. -/
def Obligations.Jump : Prop :=
  (∀ w, w.extractLsb' 5 2 = 2 → w.extractLsb' 7 2 = 0 →
    decode (some ⟨.reg, .normal⟩) w = .ok (.jmp (w.extractLsb' 0 5) (w.extractLsb' 9 5).toFin) ∧
    decode (some ⟨.imm, .normal⟩) w = .ok (.jmpImm (w.extractLsb' 0 5) (w.extractLsb' 9 23))) ∧
  encode (.jmp 31 31) = 0x00003E5F ∧ encode (.jmpImm 2 0x7FFFFD) = 0xFFFFFA42 ∧
  encode (.jmpImm 1 5) = 0x00000A41 ∧
  ∀ (c : Code) (r : Reg) (k : BitVec 23) (s : State),
    (∃ t, exec (.jmp c r) s = .next t ∧
      JumpsTo [] (if s.condHolds condMatchE1 c then s.getReg r else s.pc + 1) s t) ∧
    (∃ t, exec (.jmpImm c k) s = .next t ∧
      JumpsTo [] (if s.condHolds condMatchE1 c then s.pc + k.signExtend 32 else s.pc + 1) s t)

/-- JMPS, both forms: taken, it writes the address after it to LR, then jumps, the register read after the link; not taken, it
leaves LR alone (43_control.md section 2; log 17). -/
def Obligations.SubroutineJump : Prop :=
  ∀ (c : Code) (r : Reg) (k : BitVec 23) (s : State),
    (s.condHolds condMatchE1 c = true →
      (∃ t, exec (.jmps c r) s = .next t ∧ t.lr = s.pc + 1 ∧
        JumpsTo [Reg.lr] (if r = Reg.lr then s.pc + 1 else s.getReg r) s t) ∧
      (∃ t, exec (.jmpsImm c k) s = .next t ∧ t.lr = s.pc + 1 ∧
        JumpsTo [Reg.lr] (s.pc + k.signExtend 32) s t)) ∧
    (s.condHolds condMatchE1 c = false →
      (∃ t, exec (.jmps c r) s = .next t ∧ JumpsTo [] (s.pc + 1) s t) ∧
      (∃ t, exec (.jmpsImm c k) s = .next t ∧ JumpsTo [] (s.pc + 1) s t))

/-- SIH: 43_control.md R216. -/
def Obligations.SetInterruptHandler : Prop :=
  (∀ tag w, w.extractLsb' 5 2 = 2 → w.extractLsb' 7 2 = 1 →
    decode tag w = .ok (.sih (w.extractLsb' 9 5).toFin)) ∧
  encode (.sih 1) = 0x000002DF ∧
  ∀ (r : Reg) (s : State), ∃ t, exec (.sih r) s = .next t ∧ WritesRegister Reg.ihdlr (s.getReg r) s t ∧
    (t.interruptAccepted = true ↔ s.getReg r ≠ 0xFFFFFFFF ∧ s.intFlag = false)

/-- INT, both forms, under INT_FROM_MEMORY = execute: with the flag clear and a handler set it enters the handler with its own
address in INTLR, and else only advances the pc (43_control.md section 3, 60_exceptions.md section 2; log 2, 20). -/
def Obligations.PerformInterrupt : Prop :=
  ∀ (r : Reg) (k : BitVec 4) (s : State), s.params.intFromMemory = .execute →
    ∀ p ∈ [(Instr.int r, (s.getReg r).setWidth 4), (Instr.intImm k, k)],
      (s.intFlag = false → s.ihdlr ≠ 0xFFFFFFFF → ∃ t, exec p.1 s = .next t ∧ EntersHandler p.2 s t) ∧
      (s.intFlag = true ∨ s.ihdlr = 0xFFFFFFFF → ∃ t, exec p.1 s = .next t ∧ JumpsTo [] (s.pc + 1) s t)

/-- IJMP: 43_control.md R221. -/
def Obligations.ReturnFromInterrupt : Prop :=
  (∀ tag w, w.extractLsb' 5 2 = 2 → w.extractLsb' 7 2 = 3 → decode tag w = .ok .ijmp) ∧
  encode .ijmp = 0x000001DF ∧
  ∀ s : State,
    (s.intFlag = false → ∃ t, exec .ijmp s = .next t ∧ JumpsTo [] (s.pc + 1) s t) ∧
    (s.intFlag = true → ∃ t, exec .ijmp s = .next t ∧ t.intFlag = false ∧ t.code = s.code ∧
      JumpsTo [Reg.sts] (s.getReg 26) s t)

/-- An interrupt taken at a boundary and returned from at once, with IJMP, gives back every register but INTLR, and the whole
memory but the mailbox (60_exceptions.md sections 2 and 3; log 19). -/
def Obligations.InterruptRoundTrip : Prop :=
  ∀ (s u : State) (code : BitVec 4), s.interruptAccepted = true → exec .ijmp (s.enter code) = .next u →
    SameRegistersBut [Reg.intlr] s u ∧ u.intlr = s.pc ∧ StoresWord 0xFFFFFFFF (code.setWidth 32) s u ∧
      SameGraphics s u

/-- INTLR: 10_state.md R14. Entry writes it with the pc, IJMP reads it, and no other instruction writes it unless it names
register 26 as its destination. -/
def Obligations.InterruptLinkRegister : Prop :=
  (∀ (s : State) (code : BitVec 4), s.interruptAccepted = true → (s.enter code).intlr = s.pc) ∧
  (∀ s t : State, s.intFlag = true → exec .ijmp s = .next t → t.pc = s.intlr) ∧
  ∀ (i : Instr) (s t : State), exec i s = .next t → destination i ≠ some Reg.intlr → family i ≠ .interrupt →
    t.intlr = s.intlr

/-! ### Graphics -/

/-- The sixteen Blitter operations are the truth table of two inputs: bit `i` of the result is bit 3 - 2*s - d of the code, `s`
and `d` the bits `i` of source and destination (44_graphics.md section 2). -/
def Obligations.BlitterOperationTable : Prop :=
  ∀ (op : BitVec 4) (s d : Byte) (i : Nat), i < 8 →
    (blop op s d).getLsbD i = op.getLsbD (3 - 2 * (s.getLsbD i).toNat - (d.getLsbD i).toNat)

/-- GLOD copies the low-12-bit count of bytes, the least significant byte of each main-memory word first, to the sprite
library, which wraps; every other byte of the sprite library and everything else but the pc stays (44_graphics.md section 3;
log 24). -/
def Obligations.LoadSprite : Prop :=
  ∀ (d r n : Reg) (s : State), ∃ t, exec (.glod d r n) s = .next t ∧ t.pc = s.pc + 1 ∧
    (∀ k < (s.getReg n).toNat % 4096,
      Memory.read t.spr (((s.getReg d).toNat + k) % 4096) =
        (s.memRead (s.getReg r + BitVec.ofNat 32 (k / 4))).extractLsb' (8 * (k % 4)) 8) ∧
    (∀ j, (∀ k < (s.getReg n).toNat % 4096, j ≠ ((s.getReg d).toNat + k) % 4096) →
      Memory.read t.spr j = Memory.read s.spr j) ∧
    SameRegistersBut [Reg.pc] s t ∧ SameMemory s t ∧ SameScreen s t ∧ SameBlitter s t ∧ SameSetting s t

/-- BLITMEM: 44_graphics.md R246. -/
def Obligations.SetBlitterMemory : Prop :=
  (∀ tag w, w.extractLsb' 5 2 = 3 → w.extractLsb' 7 2 = 1 →
    decode tag w = .ok (.blitmem (w.extractLsb' 9 5).toFin (w.extractLsb' 14 5).toFin)) ∧
  encode (.blitmem 0 4) = 0x000100FF ∧
  ∀ (r d : Reg) (s : State), ∃ t, exec (.blitmem r d) s = .next t ∧ t.pc = s.pc + 1 ∧
    t.bsrc = (s.getReg r).extractLsb' 0 12 ∧ t.bdst = (s.getReg d).extractLsb' 0 16 ∧
    t.bsrcSet = true ∧ t.bdstSet = true ∧ t.bw = s.bw ∧ t.bh = s.bh ∧ t.bwSet = s.bwSet ∧ t.bhSet = s.bhSet ∧
    SameRegistersBut [Reg.pc] s t ∧ SameMemory s t ∧ SameScreen s t ∧ SameSprites s t ∧ SameSetting s t

/-- BLITDIMS, both forms: 44_graphics.md R247, R248. -/
def Obligations.SetBlitterDimensions : Prop :=
  (∀ w, w.extractLsb' 5 2 = 3 → w.extractLsb' 7 2 = 2 → ∀ j : JumpKind,
    decode (some ⟨.reg, j⟩) w = .ok (.blitdims (w.extractLsb' 9 5).toFin (w.extractLsb' 14 5).toFin) ∧
    decode (some ⟨.imm, j⟩) w = .ok (.blitdimsImm (w.extractLsb' 9 7) (w.extractLsb' 16 7))) ∧
  encode (.blitdims 5 6) = 0x00018B7F ∧ encode (.blitdimsImm 2 2) = 0x0002057F ∧
  ∀ (w h : Reg) (x y : BitVec 7) (s : State),
    ∀ p ∈ [(Instr.blitdims w h, (s.getReg w).extractLsb' 0 7, (s.getReg h).extractLsb' 0 7),
        (Instr.blitdimsImm x y, x, y)],
      ∃ t, exec p.1 s = .next t ∧ t.pc = s.pc + 1 ∧ t.bw = p.2.1 ∧ t.bh = p.2.2 ∧ t.bwSet = true ∧ t.bhSet = true ∧
        t.bsrc = s.bsrc ∧ t.bdst = s.bdst ∧ t.bsrcSet = s.bsrcSet ∧ t.bdstSet = s.bdstSet ∧
        SameRegistersBut [Reg.pc] s t ∧ SameMemory s t ∧ SameScreen s t ∧ SameSprites s t ∧ SameSetting s t

/-- BLIT, both forms, with every Blitter register set: each pixel of the rectangle becomes the operation's result masked, from
the sprite byte and the pixel as they were, with the screen and the sprite library wrapping; every other pixel and
everything else but the pc stays (44_graphics.md section 5; log 24). -/
def Obligations.TransferRectangle : Prop :=
  ∀ (o m : Reg) (x : BitVec 4) (y : Byte) (s : State),
    s.bsrcSet = true → s.bdstSet = true → s.bwSet = true → s.bhSet = true →
    ∀ p ∈ [(Instr.blit o m, (s.getReg o).setWidth 4, (s.getReg m).setWidth 8), (Instr.blitImm x y, x, y)],
      ∃ t, exec p.1 s = .next t ∧ t.pc = s.pc + 1 ∧
        (∀ r < s.bh.toNat, ∀ c < s.bw.toNat,
          Memory.read t.fb ((s.bdst.toNat + r * 256 + c) % 2 ^ 16) =
            blop p.2.1 (Memory.read s.spr ((s.bsrc.toNat + r * s.bw.toNat + c) % 2 ^ 12))
              (Memory.read s.fb ((s.bdst.toNat + r * 256 + c) % 2 ^ 16)) &&& p.2.2) ∧
        (∀ j, (∀ r < s.bh.toNat, ∀ c < s.bw.toNat, j ≠ (s.bdst.toNat + r * 256 + c) % 2 ^ 16) →
          Memory.read t.fb j = Memory.read s.fb j) ∧
        SameRegistersBut [Reg.pc] s t ∧ SameMemory s t ∧ SameSprites s t ∧ SameBlitter s t ∧ SameSetting s t

/-! ### Rules of the whole machine -/

/-- Only the graphics instructions touch the graphics memories and the Blitter, and they touch no register but the pc and no
byte of main memory; main memory changes by stores, pushes and interrupt entry only (44_graphics.md section 1,
70_reset_and_hazards.md section 3; log 20). -/
def Obligations.MemoriesAndTheirWriters : Prop :=
  ∀ (i : Instr) (s t : State), exec i s = .next t →
    (family i ≠ .graphics → SameGraphics s t) ∧
    (family i = .graphics → SameRegistersBut [Reg.pc] s t) ∧
    (family i ∉ [.store, .push, .interrupt] → SameMemory s t)

/-- STS is written by the arithmetic instructions, the compares, INT, IJMP and an instruction that names register 29 as its
destination, and by no other; of these the arithmetic instructions and the compares leave the interrupt flag alone
(10_state.md section 3; log 10). -/
def Obligations.StatusRegisterWriters : Prop :=
  ∀ (i : Instr) (s t : State), exec i s = .next t → destination i ≠ some Reg.sts →
    (family i ∉ [.arithmetic, .compare, .interrupt, .interruptReturn] → t.sts = s.sts) ∧
    (family i ∉ [.interrupt, .interruptReturn] → t.intFlag = s.intFlag)

/-- SP, LR and IHDLR are written implicitly by PUSH and POP, by a taken subroutine jump and by SIH, each by no other
instruction that does not name it as its destination (10_state.md sections 1 and 4, 43_control.md sections 2
and 3). -/
def Obligations.ImplicitRegisterWriters : Prop :=
  ∀ (i : Instr) (s t : State), exec i s = .next t →
    (destination i ≠ some Reg.sp → family i ∉ [.push, .pop] → t.sp = s.sp) ∧
    (destination i ≠ some Reg.lr → family i ≠ .subroutineJump → t.lr = s.lr) ∧
    (destination i ≠ some Reg.ihdlr → family i ≠ .setHandler → t.ihdlr = s.ihdlr)

/-- The pc moves to the next word after every instruction but a taken jump, INT, IJMP and one that names register 28 as its
destination (10_state.md section 2; log 18). -/
def Obligations.PcAdvances : Prop :=
  ∀ (i : Instr) (s t : State), exec i s = .next t → destination i ≠ some Reg.pc →
    family i ∉ [.interrupt, .interruptReturn] →
    (∀ c, ((∃ r, i = .jmp c r ∨ i = .jmps c r) ∨ ∃ k, i = .jmpImm c k ∨ i = .jmpsImm c k) →
      s.condHolds condMatchE1 c = false) →
    t.pc = s.pc + 1

/-- An E1 instruction faults in three cases only: an integer division by zero under DIV_ZERO = fault, an INT under
INT_FROM_MEMORY = fault, a BLIT with a Blitter register unset; it never refuses (60_exceptions.md section 4; log 2, 8). -/
def Obligations.FaultsOfInstructions : Prop :=
  ∀ (i : Instr) (s : State), (∀ r, exec i s ≠ .refused r) ∧
    ∀ f, exec i s = .fault f ↔
      (f = .divideByZero s.pc ∧ s.params.divZero = .fault ∧
        ∃ d a, (∃ b, (i = .divui d a b ∨ i = .divsi d a b) ∧ s.getReg b = 0) ∨
          i = .divuiImm d a 0 ∨ i = .divsiImm d a 0) ∨
      (f = .internalInstruction s.pc (s.memRead s.pc) ∧ s.params.intFromMemory = .fault ∧
        ((∃ r, i = .int r) ∨ ∃ k, i = .intImm k)) ∨
      (f = .blitterUnset s.pc ∧ (s.bsrcSet && s.bdstSet && s.bwSet && s.bhSet) = false ∧
        ((∃ o m, i = .blit o m) ∨ ∃ o m, i = .blitImm o m))

/-- Every E1 instruction answers a next state, in every state of a machine launched to divide by zero and to execute INT
and whose Blitter is set up, and the parameters stay; under the spec's defaults the two of them fault as
`FaultsOfInstructions` says (40 section 1, 43_control.md section 3; log 2). -/
def Obligations.EveryInstructionCompletes : Prop :=
  ∀ (i : Instr) (s : State), s.params.divZero = .any → s.params.intFromMemory = .execute →
    s.bsrcSet = true → s.bdstSet = true → s.bwSet = true → s.bhSet = true →
    ∃ t, exec i s = .next t ∧ SameSetting s t

/-! ### Edition E2 (49; log 25) -/

/-- Every E2 instruction answers a next state under the same conditions, and only HALT changes `halted`. -/
def Obligations.EveryE2InstructionCompletes : Prop :=
  ∀ (i : InstrE2) (s : State), s.params.divZero = .any →
    s.bsrcSet = true → s.bdstSet = true → s.bwSet = true → s.bhSet = true →
    ∃ t, execE2 i s = .next t ∧ t.params = s.params ∧ t.halted = (s.halted || decide (i = .halt))

/-- The E2 instructions that are those of E1 under another code have the same effect (49 sections 1, 3, 4 and 6). -/
def Obligations.E2KeepsE1Meanings : Prop :=
  ∀ (i : InstrE2) (j : Instr) (s : State), counterpart i = some j → execE2 i s = exec j s

/-- JMP of E2, both forms: 49 R333, R334, with COND_MATCH as the machine's parameters give it. -/
def Obligations.JumpE2 : Prop :=
  (∀ w, w.extractLsb' 5 2 = 0 → w.extractLsb' 7 1 = 1 →
    decodeE2 (some ⟨.reg, .normal⟩) w = .ok (.jmp (w.extractLsb' 0 5) (w.extractLsb' 8 5).toFin) ∧
    decodeE2 (some ⟨.imm, .normal⟩) w = .ok (.jmpImm (w.extractLsb' 0 5) (w.extractLsb' 8 24))) ∧
  encodeE2 (.jmp 0 31) = 0x00001F80 ∧ encodeE2 (.jmp 2 3) = 0x00000382 ∧
  encodeE2 (.jmpImm 3 0xFFFFFD) = 0xFFFFFD83 ∧ encodeE2 (.jmpImm 0 0) = 0x00000080 ∧
  ∀ (c : Code) (r : Reg) (k : BitVec 24) (s : State),
    (∃ t, execE2 (.jmp c r) s = .next t ∧
      JumpsTo [] (if s.condHolds condMatchE2 c then s.getReg r else s.pc + 1) s t) ∧
    (∃ t, execE2 (.jmpImm c k) s = .next t ∧
      JumpsTo [] (if s.condHolds condMatchE2 c then s.pc + k.signExtend 32 else s.pc + 1) s t)

/-- The E2 compare is unsigned and writes E, GT or LT in E2's numbers; JMPS links and jumps when its condition matches, and
leaves LR alone when it does not; JMPI, whose operand is not used, returns from the interrupt when its condition matches and
the flag is set, and else only advances the pc (49 sections 3 and 5; log 17, 25). -/
def Obligations.CompareCallAndReturnE2 : Prop :=
  ∀ (a b r : Reg) (c : Code) (k : BitVec 24) (s : State),
    (∃ t, execE2 (.cmp a b) s = .next t ∧
      WritesCode (if s.getReg a = s.getReg b then 2 else if (s.getReg b).ult (s.getReg a) then 3 else 4) s t) ∧
    (s.condHolds condMatchE2 c = true →
      (∃ t, execE2 (.jmps c r) s = .next t ∧ t.lr = s.pc + 1 ∧
        JumpsTo [Reg.lr] (if r = Reg.lr then s.pc + 1 else s.getReg r) s t) ∧
      (∃ t, execE2 (.jmpsImm c k) s = .next t ∧ t.lr = s.pc + 1 ∧
        JumpsTo [Reg.lr] (s.pc + k.signExtend 32) s t)) ∧
    (s.condHolds condMatchE2 c = false →
      (∃ t, execE2 (.jmps c r) s = .next t ∧ JumpsTo [] (s.pc + 1) s t) ∧
      (∃ t, execE2 (.jmpsImm c k) s = .next t ∧ JumpsTo [] (s.pc + 1) s t)) ∧
    ∀ i ∈ [InstrE2.jmpi c r, InstrE2.jmpiImm c k],
      (s.condHolds condMatchE2 c = true ∧ s.intFlag = true → ∃ t, execE2 i s = .next t ∧ t.intFlag = false ∧
        t.code = s.code ∧ JumpsTo [Reg.sts] s.intlr s t) ∧
      (s.condHolds condMatchE2 c = false ∨ s.intFlag = false → ∃ t, execE2 i s = .next t ∧
        JumpsTo [] (s.pc + 1) s t)

/-- HALT stops an E2 machine for good: the step that runs it sets `halted` and changes nothing else but the model's own marks,
the count of completed instructions and the boundary's, the pc stays at the HALT, and every later run, whatever the host has scheduled, leaves the state as it is (49
section 5; log 19, 21, 25). -/
def Obligations.HaltIsFinal : Prop :=
  ∀ (s : State) (n : Nat), s.running → s.params.edition = .e2 → (s.memRead s.pc).extractLsb' 5 3 = 0 →
    Host.Core.run Sys2Proof.core (n + 1) s = .next { s with halted := true, steps := s.steps + 1, endPassed := false }

end
end

