-- ==== Sys2Proof/Laws/Encoding.lean ====
section
/-! SUPPORT. The fields of an encoded word: a field of a sum of fields at their places (30_encoding.md R94) is the field's own
value, by arithmetic. -/

namespace Sys2Proof

/-- A field of a numeral word. -/
theorem field_toNat (n lo len : Nat) :
    ((BitVec.ofNat 32 n).extractLsb' lo len).toNat = n % 2 ^ 32 / 2 ^ lo % 2 ^ len := by
  simp [Nat.shiftRight_eq_div_pow]

/-- A register field of a numeral word. -/
theorem regField_val (n lo : Nat) : (regField (BitVec.ofNat 32 n) lo).val = n % 2 ^ 32 / 2 ^ lo % 32 :=
  field_toNat n lo 5

/-- The condition of every non-jump. -/
theorem nsCode_toNat : nsCode.toNat = 31 := rfl

/-- The bits of an ALU word that its row of the table fixes are its bits 12:5. -/
theorem and_aluMask (w : Word) : w &&& (0x00001FE0 : Word) = (w.extractLsb' 5 8).setWidth 32 <<< 5 := by
  apply BitVec.eq_of_getLsbD_eq
  intro i hi
  interval_cases i <;> simp

/-- The bits of a memory word that its row of the table fixes are its bits 9:5. -/
theorem and_memoryMask (w : Word) : w &&& (0x000003E0 : Word) = (w.extractLsb' 5 5).setWidth 32 <<< 5 := by
  apply BitVec.eq_of_getLsbD_eq
  intro i hi
  interval_cases i <;> simp

/-- The bits of a control or graphics word that its row of the table fixes are its bits 8:5. -/
theorem and_controlMask (w : Word) : w &&& (0x000001E0 : Word) = (w.extractLsb' 5 4).setWidth 32 <<< 5 := by
  apply BitVec.eq_of_getLsbD_eq
  intro i hi
  interval_cases i <;> simp

/-- The fixed bits of a numeral word, from its bits 5 and up. -/
theorem fixed_bits (n len m : Nat) (h : n % 2 ^ 32 / 2 ^ 5 % 2 ^ len = m % 2 ^ len) :
    (BitVec.ofNat 32 n).extractLsb' 5 len = BitVec.ofNat len m := by
  apply BitVec.eq_of_toNat_eq
  rw [field_toNat, BitVec.toNat_ofNat, h]

end Sys2Proof
end

