-- ==== Sys2Proof/Laws/Memory.lean ====
section
/-! SUPPORT. What reading and writing a memory do: a byte read after a write, for every list; the canonical form and the
address bound are kept by every memory operation. -/

namespace Sys2Proof.Machine

theorem Memory.read_erase (m : List Host.Cell) (k j : Nat) :
    Memory.read (Memory.erase m k) j = if j = k then Memory.unlisted else Memory.read m j := by
  induction m with
  | nil => simp [Memory.erase, Memory.read]
  | cons c rest ih =>
    obtain ⟨a, v⟩ := c
    simp only [Memory.erase] at ih
    by_cases ha : a = k
    · subst ha
      simp only [Memory.erase, List.filter_cons, bne_self_eq_false, Bool.false_eq_true, if_false]
      rw [ih]
      by_cases hj : j = a
      · simp [hj]
      · simp [Memory.read, hj, Ne.symm hj]
    · have hb : (a != k) = true := by simpa using ha
      simp only [Memory.erase, List.filter_cons, hb, if_true, Memory.read]
      rw [ih]
      by_cases hj : a = j
      · subst hj; simp [ha]
      · simp [hj]

/-- Every key of an erased memory differs from the erased one. -/
theorem Memory.erase_ne (m : List Host.Cell) (k : Nat) : ∀ c ∈ Memory.erase m k, c.1 ≠ k := by
  intro c hc
  simpa [Memory.erase] using (List.mem_filter.1 hc).2

theorem Memory.read_insert (k : Nat) (v : Byte) (m : List Host.Cell) (hm : ∀ c ∈ m, c.1 ≠ k) (j : Nat) :
    Memory.read (Memory.insert k v m) j = if j = k then v else Memory.read m j := by
  induction m with
  | nil => by_cases h : k = j <;> simp [Memory.insert, Memory.read, h, Ne.symm]
  | cons c rest ih =>
    obtain ⟨a, w⟩ := c
    have ha : a ≠ k := hm (a, w) (by simp)
    have ih := ih (fun c hc => hm c (by simp [hc]))
    simp only [Memory.insert]
    split
    · simp only [Memory.read]
      rw [ih]
      by_cases hj : a = j
      · subst hj; simp [ha]
      · simp [hj]
    · by_cases hj : k = j
      · simp [Memory.read, hj]
      · simp [Memory.read, hj, Ne.symm hj]

/-- A byte read after a write. -/
theorem Memory.read_write (m : List Host.Cell) (k : Nat) (v : Byte) (j : Nat) :
    Memory.read (Memory.write m k v) j = if j = k then v else Memory.read m j := by
  unfold Memory.write
  split
  · rename_i h
    rw [Memory.read_erase, h]
  · rw [Memory.read_insert _ _ _ (Memory.erase_ne m k), Memory.read_erase]
    by_cases hj : j = k <;> simp [hj]

@[simp] theorem Memory.read_write_same (m : List Host.Cell) (k : Nat) (v : Byte) :
    Memory.read (Memory.write m k v) k = v := by simp [Memory.read_write]

theorem Memory.read_write_ne (m : List Host.Cell) (k : Nat) (v : Byte) (j : Nat) (h : j ≠ k) :
    Memory.read (Memory.write m k v) j = Memory.read m j := by simp [Memory.read_write, h]

/-! ### The canonical form -/

/-- The canonical form, as a proposition about every entry and every ordered pair of entries. -/
theorem Memory.wf_cons (a : Nat) (v : Byte) (rest : List Host.Cell) :
    Memory.wf ((a, v) :: rest) = true ↔ v ≠ Memory.unlisted ∧ (∀ c ∈ rest, a < c.1) ∧ Memory.wf rest = true := by
  simp [Memory.wf, and_assoc]

theorem Memory.wf_erase (m : List Host.Cell) (k : Nat) (h : Memory.wf m = true) :
    Memory.wf (Memory.erase m k) = true := by
  induction m with
  | nil => simp [Memory.erase, Memory.wf]
  | cons c rest ih =>
    obtain ⟨a, v⟩ := c
    rw [Memory.wf_cons] at h
    have ih := ih h.2.2
    by_cases ha : a = k
    · simpa [Memory.erase, ha] using ih
    · have : Memory.erase ((a, v) :: rest) k = (a, v) :: Memory.erase rest k := by
        simp [Memory.erase, ha]
      rw [this, Memory.wf_cons]
      refine ⟨h.1, fun c hc => h.2.1 c ?_, ih⟩
      exact (List.mem_filter.1 hc).1

theorem Memory.mem_insert (k : Nat) (v : Byte) (m : List Host.Cell) (c : Host.Cell)
    (h : c ∈ Memory.insert k v m) : c = (k, v) ∨ c ∈ m := by
  induction m with
  | nil => simpa [Memory.insert] using h
  | cons d rest ih =>
    obtain ⟨a, w⟩ := d
    simp only [Memory.insert] at h
    split at h
    · rcases List.mem_cons.1 h with h | h
      · simp [h]
      · rcases ih h with h | h <;> simp [h]
    · simpa using h

theorem Memory.wf_insert (k : Nat) (v : Byte) (m : List Host.Cell) (hv : v ≠ Memory.unlisted)
    (hk : ∀ c ∈ m, c.1 ≠ k) (h : Memory.wf m = true) : Memory.wf (Memory.insert k v m) = true := by
  induction m with
  | nil => simp [Memory.insert, Memory.wf, hv]
  | cons c rest ih =>
    obtain ⟨a, w⟩ := c
    have hh := (Memory.wf_cons a w rest).1 h
    have ha : a ≠ k := hk (a, w) (by simp)
    have ih := ih (fun c hc => hk c (by simp [hc])) hh.2.2
    simp only [Memory.insert]
    split
    · rename_i hlt
      rw [Memory.wf_cons]
      refine ⟨hh.1, fun c hc => ?_, ih⟩
      rcases Memory.mem_insert k v rest c hc with rfl | hc
      · exact hlt
      · exact hh.2.1 c hc
    · rename_i hlt
      rw [Memory.wf_cons]
      refine ⟨hv, fun c hc => ?_, h⟩
      have hka : k < a := by omega
      rcases List.mem_cons.1 hc with rfl | hc
      · exact hka
      · exact Nat.lt_trans hka (hh.2.1 c hc)

/-- A write keeps the canonical form. -/
theorem Memory.wf_write (m : List Host.Cell) (k : Nat) (v : Byte) (h : Memory.wf m = true) :
    Memory.wf (Memory.write m k v) = true := by
  unfold Memory.write
  split
  · exact Memory.wf_erase m k h
  · exact Memory.wf_insert k v _ ‹_› (Memory.erase_ne m k) (Memory.wf_erase m k h)

/-- A write keeps the address bound. -/
theorem Memory.below_write (n : Nat) (m : List Host.Cell) (k : Nat) (v : Byte) (hk : k < n)
    (h : Memory.below n m = true) : Memory.below n (Memory.write m k v) = true := by
  have he : ∀ c ∈ Memory.erase m k, c.1 < n := fun c hc => by
    have := List.all_eq_true.1 h c (List.mem_filter.1 hc).1
    simpa using this
  unfold Memory.write Memory.below
  rw [List.all_eq_true]
  intro c hc
  split at hc
  · simpa using he c hc
  · rcases Memory.mem_insert k v _ c hc with rfl | hc
    · simpa using hk
    · simpa using he c hc

/-! ### A memory from a list of contents -/

/-- A byte of a filled memory: the list's, below the bound. -/
theorem Memory.read_fill (n : Nat) (m : List Host.Cell) (k : Nat) :
    Memory.read (Memory.fill n m) k = if k < n then Memory.read m k else Memory.unlisted := by
  induction m with
  | nil => simp [Memory.fill, Memory.read]
  | cons c rest ih =>
    obtain ⟨a, v⟩ := c
    simp only [Memory.fill, Memory.read]
    split
    · rw [Memory.read_write, ih]
      by_cases h : k = a
      · subst h; simp [*]
      · simp [h, Ne.symm h]
    · rw [ih]
      by_cases h : a = k
      · subst h; simp [*]
      · simp [h]

theorem Memory.wf_fill (n : Nat) (m : List Host.Cell) : Memory.wf (Memory.fill n m) = true := by
  induction m with
  | nil => rfl
  | cons c rest ih =>
    simp only [Memory.fill]
    split
    · exact Memory.wf_write _ _ _ ih
    · exact ih

theorem Memory.below_fill (n : Nat) (m : List Host.Cell) : Memory.below n (Memory.fill n m) = true := by
  induction m with
  | nil => rfl
  | cons c rest ih =>
    simp only [Memory.fill]
    split
    · exact Memory.below_write _ _ _ _ ‹_› ih
    · exact ih

/-! ### Words -/

theorem Memory.wf_writeWord (m : List Host.Cell) (a v : Word) (h : Memory.wf m = true) :
    Memory.wf (Memory.writeWord m a v) = true :=
  Memory.wf_write _ _ _ (Memory.wf_write _ _ _ (Memory.wf_write _ _ _ (Memory.wf_write _ _ _ h)))

/-- Every byte of main memory is below 2^34. -/
theorem byteAddr_lt (a : Word) (i : Nat) (h : i < 4) : byteAddr a i < 2 ^ 34 := by
  have := a.isLt
  unfold byteAddr
  omega

theorem Memory.below_writeWord (m : List Host.Cell) (a v : Word) (h : Memory.below (2 ^ 34) m = true) :
    Memory.below (2 ^ 34) (Memory.writeWord m a v) = true :=
  Memory.below_write _ _ _ _ (byteAddr_lt a 3 (by decide)) <|
    Memory.below_write _ _ _ _ (byteAddr_lt a 2 (by decide)) <|
      Memory.below_write _ _ _ _ (byteAddr_lt a 1 (by decide)) <|
        Memory.below_write _ _ _ _ (byteAddr_lt a 0 (by decide)) h

end Sys2Proof.Machine
end

