-- ==== Sys2Proof/Laws/State.lean ====
section
/-! SUPPORT. One lemma per field per update of State, and what reading a register gives after each update. -/

namespace Sys2Proof.Machine

/-! ### advance -/

@[simp] theorem State.advance_gpr (s : State) : s.advance.gpr = s.gpr := rfl
@[simp] theorem State.advance_intlr (s : State) : s.advance.intlr = s.intlr := rfl
@[simp] theorem State.advance_ihdlr (s : State) : s.advance.ihdlr = s.ihdlr := rfl
@[simp] theorem State.advance_pc (s : State) : s.advance.pc = s.pc + 1 := rfl
@[simp] theorem State.advance_sts (s : State) : s.advance.sts = s.sts := rfl
@[simp] theorem State.advance_sp (s : State) : s.advance.sp = s.sp := rfl
@[simp] theorem State.advance_lr (s : State) : s.advance.lr = s.lr := rfl
@[simp] theorem State.advance_bsrc (s : State) : s.advance.bsrc = s.bsrc := rfl
@[simp] theorem State.advance_bdst (s : State) : s.advance.bdst = s.bdst := rfl
@[simp] theorem State.advance_bw (s : State) : s.advance.bw = s.bw := rfl
@[simp] theorem State.advance_bh (s : State) : s.advance.bh = s.bh := rfl
@[simp] theorem State.advance_bsrcSet (s : State) : s.advance.bsrcSet = s.bsrcSet := rfl
@[simp] theorem State.advance_bdstSet (s : State) : s.advance.bdstSet = s.bdstSet := rfl
@[simp] theorem State.advance_bwSet (s : State) : s.advance.bwSet = s.bwSet := rfl
@[simp] theorem State.advance_bhSet (s : State) : s.advance.bhSet = s.bhSet := rfl
@[simp] theorem State.advance_mem (s : State) : s.advance.mem = s.mem := rfl
@[simp] theorem State.advance_fb (s : State) : s.advance.fb = s.fb := rfl
@[simp] theorem State.advance_spr (s : State) : s.advance.spr = s.spr := rfl
@[simp] theorem State.advance_halted (s : State) : s.advance.halted = s.halted := rfl
@[simp] theorem State.advance_params (s : State) : s.advance.params = s.params := rfl
@[simp] theorem State.advance_draws (s : State) : s.advance.draws = s.draws := rfl
@[simp] theorem State.advance_steps (s : State) : s.advance.steps = s.steps := rfl
@[simp] theorem State.advance_schedule (s : State) : s.advance.schedule = s.schedule := rfl
@[simp] theorem State.advance_endPassed (s : State) : s.advance.endPassed = s.endPassed := rfl

/-! ### memWrite -/

@[simp] theorem State.memWrite_gpr (s : State) (a v : Word) : (s.memWrite a v).gpr = s.gpr := rfl
@[simp] theorem State.memWrite_intlr (s : State) (a v : Word) : (s.memWrite a v).intlr = s.intlr := rfl
@[simp] theorem State.memWrite_ihdlr (s : State) (a v : Word) : (s.memWrite a v).ihdlr = s.ihdlr := rfl
@[simp] theorem State.memWrite_pc (s : State) (a v : Word) : (s.memWrite a v).pc = s.pc := rfl
@[simp] theorem State.memWrite_sts (s : State) (a v : Word) : (s.memWrite a v).sts = s.sts := rfl
@[simp] theorem State.memWrite_sp (s : State) (a v : Word) : (s.memWrite a v).sp = s.sp := rfl
@[simp] theorem State.memWrite_lr (s : State) (a v : Word) : (s.memWrite a v).lr = s.lr := rfl
@[simp] theorem State.memWrite_bsrc (s : State) (a v : Word) : (s.memWrite a v).bsrc = s.bsrc := rfl
@[simp] theorem State.memWrite_bdst (s : State) (a v : Word) : (s.memWrite a v).bdst = s.bdst := rfl
@[simp] theorem State.memWrite_bw (s : State) (a v : Word) : (s.memWrite a v).bw = s.bw := rfl
@[simp] theorem State.memWrite_bh (s : State) (a v : Word) : (s.memWrite a v).bh = s.bh := rfl
@[simp] theorem State.memWrite_bsrcSet (s : State) (a v : Word) : (s.memWrite a v).bsrcSet = s.bsrcSet := rfl
@[simp] theorem State.memWrite_bdstSet (s : State) (a v : Word) : (s.memWrite a v).bdstSet = s.bdstSet := rfl
@[simp] theorem State.memWrite_bwSet (s : State) (a v : Word) : (s.memWrite a v).bwSet = s.bwSet := rfl
@[simp] theorem State.memWrite_bhSet (s : State) (a v : Word) : (s.memWrite a v).bhSet = s.bhSet := rfl
@[simp] theorem State.memWrite_mem (s : State) (a v : Word) : (s.memWrite a v).mem = Memory.writeWord s.mem a v := rfl
@[simp] theorem State.memWrite_fb (s : State) (a v : Word) : (s.memWrite a v).fb = s.fb := rfl
@[simp] theorem State.memWrite_spr (s : State) (a v : Word) : (s.memWrite a v).spr = s.spr := rfl
@[simp] theorem State.memWrite_halted (s : State) (a v : Word) : (s.memWrite a v).halted = s.halted := rfl
@[simp] theorem State.memWrite_params (s : State) (a v : Word) : (s.memWrite a v).params = s.params := rfl
@[simp] theorem State.memWrite_draws (s : State) (a v : Word) : (s.memWrite a v).draws = s.draws := rfl
@[simp] theorem State.memWrite_steps (s : State) (a v : Word) : (s.memWrite a v).steps = s.steps := rfl
@[simp] theorem State.memWrite_schedule (s : State) (a v : Word) : (s.memWrite a v).schedule = s.schedule := rfl
@[simp] theorem State.memWrite_endPassed (s : State) (a v : Word) : (s.memWrite a v).endPassed = s.endPassed := rfl

/-! ### setCode -/

@[simp] theorem State.setCode_gpr (s : State) (c : Code) : (s.setCode c).gpr = s.gpr := rfl
@[simp] theorem State.setCode_intlr (s : State) (c : Code) : (s.setCode c).intlr = s.intlr := rfl
@[simp] theorem State.setCode_ihdlr (s : State) (c : Code) : (s.setCode c).ihdlr = s.ihdlr := rfl
@[simp] theorem State.setCode_pc (s : State) (c : Code) : (s.setCode c).pc = s.pc := rfl
@[simp] theorem State.setCode_sts (s : State) (c : Code) : (s.setCode c).sts = stsOf s.intFlag c := rfl
@[simp] theorem State.setCode_sp (s : State) (c : Code) : (s.setCode c).sp = s.sp := rfl
@[simp] theorem State.setCode_lr (s : State) (c : Code) : (s.setCode c).lr = s.lr := rfl
@[simp] theorem State.setCode_bsrc (s : State) (c : Code) : (s.setCode c).bsrc = s.bsrc := rfl
@[simp] theorem State.setCode_bdst (s : State) (c : Code) : (s.setCode c).bdst = s.bdst := rfl
@[simp] theorem State.setCode_bw (s : State) (c : Code) : (s.setCode c).bw = s.bw := rfl
@[simp] theorem State.setCode_bh (s : State) (c : Code) : (s.setCode c).bh = s.bh := rfl
@[simp] theorem State.setCode_bsrcSet (s : State) (c : Code) : (s.setCode c).bsrcSet = s.bsrcSet := rfl
@[simp] theorem State.setCode_bdstSet (s : State) (c : Code) : (s.setCode c).bdstSet = s.bdstSet := rfl
@[simp] theorem State.setCode_bwSet (s : State) (c : Code) : (s.setCode c).bwSet = s.bwSet := rfl
@[simp] theorem State.setCode_bhSet (s : State) (c : Code) : (s.setCode c).bhSet = s.bhSet := rfl
@[simp] theorem State.setCode_mem (s : State) (c : Code) : (s.setCode c).mem = s.mem := rfl
@[simp] theorem State.setCode_fb (s : State) (c : Code) : (s.setCode c).fb = s.fb := rfl
@[simp] theorem State.setCode_spr (s : State) (c : Code) : (s.setCode c).spr = s.spr := rfl
@[simp] theorem State.setCode_halted (s : State) (c : Code) : (s.setCode c).halted = s.halted := rfl
@[simp] theorem State.setCode_params (s : State) (c : Code) : (s.setCode c).params = s.params := rfl
@[simp] theorem State.setCode_draws (s : State) (c : Code) : (s.setCode c).draws = s.draws := rfl
@[simp] theorem State.setCode_steps (s : State) (c : Code) : (s.setCode c).steps = s.steps := rfl
@[simp] theorem State.setCode_schedule (s : State) (c : Code) : (s.setCode c).schedule = s.schedule := rfl
@[simp] theorem State.setCode_endPassed (s : State) (c : Code) : (s.setCode c).endPassed = s.endPassed := rfl

/-! ### setIntFlag -/

@[simp] theorem State.setIntFlag_gpr (s : State) (b : Bool) : (s.setIntFlag b).gpr = s.gpr := rfl
@[simp] theorem State.setIntFlag_intlr (s : State) (b : Bool) : (s.setIntFlag b).intlr = s.intlr := rfl
@[simp] theorem State.setIntFlag_ihdlr (s : State) (b : Bool) : (s.setIntFlag b).ihdlr = s.ihdlr := rfl
@[simp] theorem State.setIntFlag_pc (s : State) (b : Bool) : (s.setIntFlag b).pc = s.pc := rfl
@[simp] theorem State.setIntFlag_sts (s : State) (b : Bool) : (s.setIntFlag b).sts = stsOf b s.code := rfl
@[simp] theorem State.setIntFlag_sp (s : State) (b : Bool) : (s.setIntFlag b).sp = s.sp := rfl
@[simp] theorem State.setIntFlag_lr (s : State) (b : Bool) : (s.setIntFlag b).lr = s.lr := rfl
@[simp] theorem State.setIntFlag_bsrc (s : State) (b : Bool) : (s.setIntFlag b).bsrc = s.bsrc := rfl
@[simp] theorem State.setIntFlag_bdst (s : State) (b : Bool) : (s.setIntFlag b).bdst = s.bdst := rfl
@[simp] theorem State.setIntFlag_bw (s : State) (b : Bool) : (s.setIntFlag b).bw = s.bw := rfl
@[simp] theorem State.setIntFlag_bh (s : State) (b : Bool) : (s.setIntFlag b).bh = s.bh := rfl
@[simp] theorem State.setIntFlag_bsrcSet (s : State) (b : Bool) : (s.setIntFlag b).bsrcSet = s.bsrcSet := rfl
@[simp] theorem State.setIntFlag_bdstSet (s : State) (b : Bool) : (s.setIntFlag b).bdstSet = s.bdstSet := rfl
@[simp] theorem State.setIntFlag_bwSet (s : State) (b : Bool) : (s.setIntFlag b).bwSet = s.bwSet := rfl
@[simp] theorem State.setIntFlag_bhSet (s : State) (b : Bool) : (s.setIntFlag b).bhSet = s.bhSet := rfl
@[simp] theorem State.setIntFlag_mem (s : State) (b : Bool) : (s.setIntFlag b).mem = s.mem := rfl
@[simp] theorem State.setIntFlag_fb (s : State) (b : Bool) : (s.setIntFlag b).fb = s.fb := rfl
@[simp] theorem State.setIntFlag_spr (s : State) (b : Bool) : (s.setIntFlag b).spr = s.spr := rfl
@[simp] theorem State.setIntFlag_halted (s : State) (b : Bool) : (s.setIntFlag b).halted = s.halted := rfl
@[simp] theorem State.setIntFlag_params (s : State) (b : Bool) : (s.setIntFlag b).params = s.params := rfl
@[simp] theorem State.setIntFlag_draws (s : State) (b : Bool) : (s.setIntFlag b).draws = s.draws := rfl
@[simp] theorem State.setIntFlag_steps (s : State) (b : Bool) : (s.setIntFlag b).steps = s.steps := rfl
@[simp] theorem State.setIntFlag_schedule (s : State) (b : Bool) : (s.setIntFlag b).schedule = s.schedule := rfl
@[simp] theorem State.setIntFlag_endPassed (s : State) (b : Bool) : (s.setIntFlag b).endPassed = s.endPassed := rfl

/-! ### drawn -/

@[simp] theorem State.drawn_gpr (s : State) : s.drawn.gpr = s.gpr := rfl
@[simp] theorem State.drawn_intlr (s : State) : s.drawn.intlr = s.intlr := rfl
@[simp] theorem State.drawn_ihdlr (s : State) : s.drawn.ihdlr = s.ihdlr := rfl
@[simp] theorem State.drawn_pc (s : State) : s.drawn.pc = s.pc := rfl
@[simp] theorem State.drawn_sts (s : State) : s.drawn.sts = s.sts := rfl
@[simp] theorem State.drawn_sp (s : State) : s.drawn.sp = s.sp := rfl
@[simp] theorem State.drawn_lr (s : State) : s.drawn.lr = s.lr := rfl
@[simp] theorem State.drawn_bsrc (s : State) : s.drawn.bsrc = s.bsrc := rfl
@[simp] theorem State.drawn_bdst (s : State) : s.drawn.bdst = s.bdst := rfl
@[simp] theorem State.drawn_bw (s : State) : s.drawn.bw = s.bw := rfl
@[simp] theorem State.drawn_bh (s : State) : s.drawn.bh = s.bh := rfl
@[simp] theorem State.drawn_bsrcSet (s : State) : s.drawn.bsrcSet = s.bsrcSet := rfl
@[simp] theorem State.drawn_bdstSet (s : State) : s.drawn.bdstSet = s.bdstSet := rfl
@[simp] theorem State.drawn_bwSet (s : State) : s.drawn.bwSet = s.bwSet := rfl
@[simp] theorem State.drawn_bhSet (s : State) : s.drawn.bhSet = s.bhSet := rfl
@[simp] theorem State.drawn_mem (s : State) : s.drawn.mem = s.mem := rfl
@[simp] theorem State.drawn_fb (s : State) : s.drawn.fb = s.fb := rfl
@[simp] theorem State.drawn_spr (s : State) : s.drawn.spr = s.spr := rfl
@[simp] theorem State.drawn_halted (s : State) : s.drawn.halted = s.halted := rfl
@[simp] theorem State.drawn_params (s : State) : s.drawn.params = s.params := rfl
@[simp] theorem State.drawn_draws (s : State) : s.drawn.draws = s.draws + 1 := rfl
@[simp] theorem State.drawn_steps (s : State) : s.drawn.steps = s.steps := rfl
@[simp] theorem State.drawn_schedule (s : State) : s.drawn.schedule = s.schedule := rfl
@[simp] theorem State.drawn_endPassed (s : State) : s.drawn.endPassed = s.endPassed := rfl

/-! ### arithmeticStatus -/

@[simp] theorem State.arithmeticStatus_gpr (s : State) : s.arithmeticStatus.gpr = s.gpr := rfl
@[simp] theorem State.arithmeticStatus_intlr (s : State) : s.arithmeticStatus.intlr = s.intlr := rfl
@[simp] theorem State.arithmeticStatus_ihdlr (s : State) : s.arithmeticStatus.ihdlr = s.ihdlr := rfl
@[simp] theorem State.arithmeticStatus_pc (s : State) : s.arithmeticStatus.pc = s.pc := rfl
@[simp] theorem State.arithmeticStatus_sts (s : State) : s.arithmeticStatus.sts = stsOf s.intFlag (Config.anyCode s.draws) := rfl
@[simp] theorem State.arithmeticStatus_sp (s : State) : s.arithmeticStatus.sp = s.sp := rfl
@[simp] theorem State.arithmeticStatus_lr (s : State) : s.arithmeticStatus.lr = s.lr := rfl
@[simp] theorem State.arithmeticStatus_bsrc (s : State) : s.arithmeticStatus.bsrc = s.bsrc := rfl
@[simp] theorem State.arithmeticStatus_bdst (s : State) : s.arithmeticStatus.bdst = s.bdst := rfl
@[simp] theorem State.arithmeticStatus_bw (s : State) : s.arithmeticStatus.bw = s.bw := rfl
@[simp] theorem State.arithmeticStatus_bh (s : State) : s.arithmeticStatus.bh = s.bh := rfl
@[simp] theorem State.arithmeticStatus_bsrcSet (s : State) : s.arithmeticStatus.bsrcSet = s.bsrcSet := rfl
@[simp] theorem State.arithmeticStatus_bdstSet (s : State) : s.arithmeticStatus.bdstSet = s.bdstSet := rfl
@[simp] theorem State.arithmeticStatus_bwSet (s : State) : s.arithmeticStatus.bwSet = s.bwSet := rfl
@[simp] theorem State.arithmeticStatus_bhSet (s : State) : s.arithmeticStatus.bhSet = s.bhSet := rfl
@[simp] theorem State.arithmeticStatus_mem (s : State) : s.arithmeticStatus.mem = s.mem := rfl
@[simp] theorem State.arithmeticStatus_fb (s : State) : s.arithmeticStatus.fb = s.fb := rfl
@[simp] theorem State.arithmeticStatus_spr (s : State) : s.arithmeticStatus.spr = s.spr := rfl
@[simp] theorem State.arithmeticStatus_halted (s : State) : s.arithmeticStatus.halted = s.halted := rfl
@[simp] theorem State.arithmeticStatus_params (s : State) : s.arithmeticStatus.params = s.params := rfl
@[simp] theorem State.arithmeticStatus_draws (s : State) : s.arithmeticStatus.draws = s.draws + 1 := rfl
@[simp] theorem State.arithmeticStatus_steps (s : State) : s.arithmeticStatus.steps = s.steps := rfl
@[simp] theorem State.arithmeticStatus_schedule (s : State) : s.arithmeticStatus.schedule = s.schedule := rfl
@[simp] theorem State.arithmeticStatus_endPassed (s : State) : s.arithmeticStatus.endPassed = s.endPassed := rfl

/-! ### takeInterrupt -/

@[simp] theorem State.takeInterrupt_gpr (s : State) (c : BitVec 4) : (s.takeInterrupt c).gpr = s.gpr := rfl
@[simp] theorem State.takeInterrupt_intlr (s : State) (c : BitVec 4) : (s.takeInterrupt c).intlr = s.pc := rfl
@[simp] theorem State.takeInterrupt_ihdlr (s : State) (c : BitVec 4) : (s.takeInterrupt c).ihdlr = s.ihdlr := rfl
@[simp] theorem State.takeInterrupt_pc (s : State) (c : BitVec 4) : (s.takeInterrupt c).pc = s.ihdlr := rfl
@[simp] theorem State.takeInterrupt_sts (s : State) (c : BitVec 4) : (s.takeInterrupt c).sts = stsOf true s.code := rfl
@[simp] theorem State.takeInterrupt_sp (s : State) (c : BitVec 4) : (s.takeInterrupt c).sp = s.sp := rfl
@[simp] theorem State.takeInterrupt_lr (s : State) (c : BitVec 4) : (s.takeInterrupt c).lr = s.lr := rfl
@[simp] theorem State.takeInterrupt_bsrc (s : State) (c : BitVec 4) : (s.takeInterrupt c).bsrc = s.bsrc := rfl
@[simp] theorem State.takeInterrupt_bdst (s : State) (c : BitVec 4) : (s.takeInterrupt c).bdst = s.bdst := rfl
@[simp] theorem State.takeInterrupt_bw (s : State) (c : BitVec 4) : (s.takeInterrupt c).bw = s.bw := rfl
@[simp] theorem State.takeInterrupt_bh (s : State) (c : BitVec 4) : (s.takeInterrupt c).bh = s.bh := rfl
@[simp] theorem State.takeInterrupt_bsrcSet (s : State) (c : BitVec 4) : (s.takeInterrupt c).bsrcSet = s.bsrcSet := rfl
@[simp] theorem State.takeInterrupt_bdstSet (s : State) (c : BitVec 4) : (s.takeInterrupt c).bdstSet = s.bdstSet := rfl
@[simp] theorem State.takeInterrupt_bwSet (s : State) (c : BitVec 4) : (s.takeInterrupt c).bwSet = s.bwSet := rfl
@[simp] theorem State.takeInterrupt_bhSet (s : State) (c : BitVec 4) : (s.takeInterrupt c).bhSet = s.bhSet := rfl
@[simp] theorem State.takeInterrupt_mem (s : State) (c : BitVec 4) : (s.takeInterrupt c).mem = Memory.writeWord s.mem mailbox (c.setWidth 32) := rfl
@[simp] theorem State.takeInterrupt_fb (s : State) (c : BitVec 4) : (s.takeInterrupt c).fb = s.fb := rfl
@[simp] theorem State.takeInterrupt_spr (s : State) (c : BitVec 4) : (s.takeInterrupt c).spr = s.spr := rfl
@[simp] theorem State.takeInterrupt_halted (s : State) (c : BitVec 4) : (s.takeInterrupt c).halted = s.halted := rfl
@[simp] theorem State.takeInterrupt_params (s : State) (c : BitVec 4) : (s.takeInterrupt c).params = s.params := rfl
@[simp] theorem State.takeInterrupt_draws (s : State) (c : BitVec 4) : (s.takeInterrupt c).draws = s.draws := rfl
@[simp] theorem State.takeInterrupt_steps (s : State) (c : BitVec 4) : (s.takeInterrupt c).steps = s.steps := rfl
@[simp] theorem State.takeInterrupt_schedule (s : State) (c : BitVec 4) : (s.takeInterrupt c).schedule = s.schedule := rfl
@[simp] theorem State.takeInterrupt_endPassed (s : State) (c : BitVec 4) : (s.takeInterrupt c).endPassed = s.endPassed := rfl

/-! ### returnFromInterrupt -/

@[simp] theorem State.returnFromInterrupt_gpr (s : State) : s.returnFromInterrupt.gpr = s.gpr := rfl
@[simp] theorem State.returnFromInterrupt_intlr (s : State) : s.returnFromInterrupt.intlr = s.intlr := rfl
@[simp] theorem State.returnFromInterrupt_ihdlr (s : State) : s.returnFromInterrupt.ihdlr = s.ihdlr := rfl
@[simp] theorem State.returnFromInterrupt_pc (s : State) : s.returnFromInterrupt.pc = s.intlr := rfl
@[simp] theorem State.returnFromInterrupt_sts (s : State) : s.returnFromInterrupt.sts = stsOf false s.code := rfl
@[simp] theorem State.returnFromInterrupt_sp (s : State) : s.returnFromInterrupt.sp = s.sp := rfl
@[simp] theorem State.returnFromInterrupt_lr (s : State) : s.returnFromInterrupt.lr = s.lr := rfl
@[simp] theorem State.returnFromInterrupt_bsrc (s : State) : s.returnFromInterrupt.bsrc = s.bsrc := rfl
@[simp] theorem State.returnFromInterrupt_bdst (s : State) : s.returnFromInterrupt.bdst = s.bdst := rfl
@[simp] theorem State.returnFromInterrupt_bw (s : State) : s.returnFromInterrupt.bw = s.bw := rfl
@[simp] theorem State.returnFromInterrupt_bh (s : State) : s.returnFromInterrupt.bh = s.bh := rfl
@[simp] theorem State.returnFromInterrupt_bsrcSet (s : State) : s.returnFromInterrupt.bsrcSet = s.bsrcSet := rfl
@[simp] theorem State.returnFromInterrupt_bdstSet (s : State) : s.returnFromInterrupt.bdstSet = s.bdstSet := rfl
@[simp] theorem State.returnFromInterrupt_bwSet (s : State) : s.returnFromInterrupt.bwSet = s.bwSet := rfl
@[simp] theorem State.returnFromInterrupt_bhSet (s : State) : s.returnFromInterrupt.bhSet = s.bhSet := rfl
@[simp] theorem State.returnFromInterrupt_mem (s : State) : s.returnFromInterrupt.mem = s.mem := rfl
@[simp] theorem State.returnFromInterrupt_fb (s : State) : s.returnFromInterrupt.fb = s.fb := rfl
@[simp] theorem State.returnFromInterrupt_spr (s : State) : s.returnFromInterrupt.spr = s.spr := rfl
@[simp] theorem State.returnFromInterrupt_halted (s : State) : s.returnFromInterrupt.halted = s.halted := rfl
@[simp] theorem State.returnFromInterrupt_params (s : State) : s.returnFromInterrupt.params = s.params := rfl
@[simp] theorem State.returnFromInterrupt_draws (s : State) : s.returnFromInterrupt.draws = s.draws := rfl
@[simp] theorem State.returnFromInterrupt_steps (s : State) : s.returnFromInterrupt.steps = s.steps := rfl
@[simp] theorem State.returnFromInterrupt_schedule (s : State) : s.returnFromInterrupt.schedule = s.schedule := rfl
@[simp] theorem State.returnFromInterrupt_endPassed (s : State) : s.returnFromInterrupt.endPassed = s.endPassed := rfl

/-! ### setReg: the fields that are no register -/

@[simp] theorem State.setReg_bsrc (s : State) (d : Reg) (v : Word) : (s.setReg d v).bsrc = s.bsrc := by
  unfold State.setReg; (repeat' split) <;> rfl
@[simp] theorem State.setReg_bdst (s : State) (d : Reg) (v : Word) : (s.setReg d v).bdst = s.bdst := by
  unfold State.setReg; (repeat' split) <;> rfl
@[simp] theorem State.setReg_bw (s : State) (d : Reg) (v : Word) : (s.setReg d v).bw = s.bw := by
  unfold State.setReg; (repeat' split) <;> rfl
@[simp] theorem State.setReg_bh (s : State) (d : Reg) (v : Word) : (s.setReg d v).bh = s.bh := by
  unfold State.setReg; (repeat' split) <;> rfl
@[simp] theorem State.setReg_bsrcSet (s : State) (d : Reg) (v : Word) : (s.setReg d v).bsrcSet = s.bsrcSet := by
  unfold State.setReg; (repeat' split) <;> rfl
@[simp] theorem State.setReg_bdstSet (s : State) (d : Reg) (v : Word) : (s.setReg d v).bdstSet = s.bdstSet := by
  unfold State.setReg; (repeat' split) <;> rfl
@[simp] theorem State.setReg_bwSet (s : State) (d : Reg) (v : Word) : (s.setReg d v).bwSet = s.bwSet := by
  unfold State.setReg; (repeat' split) <;> rfl
@[simp] theorem State.setReg_bhSet (s : State) (d : Reg) (v : Word) : (s.setReg d v).bhSet = s.bhSet := by
  unfold State.setReg; (repeat' split) <;> rfl
@[simp] theorem State.setReg_mem (s : State) (d : Reg) (v : Word) : (s.setReg d v).mem = s.mem := by
  unfold State.setReg; (repeat' split) <;> rfl
@[simp] theorem State.setReg_fb (s : State) (d : Reg) (v : Word) : (s.setReg d v).fb = s.fb := by
  unfold State.setReg; (repeat' split) <;> rfl
@[simp] theorem State.setReg_spr (s : State) (d : Reg) (v : Word) : (s.setReg d v).spr = s.spr := by
  unfold State.setReg; (repeat' split) <;> rfl
@[simp] theorem State.setReg_halted (s : State) (d : Reg) (v : Word) : (s.setReg d v).halted = s.halted := by
  unfold State.setReg; (repeat' split) <;> rfl
@[simp] theorem State.setReg_params (s : State) (d : Reg) (v : Word) : (s.setReg d v).params = s.params := by
  unfold State.setReg; (repeat' split) <;> rfl
@[simp] theorem State.setReg_draws (s : State) (d : Reg) (v : Word) : (s.setReg d v).draws = s.draws := by
  unfold State.setReg; (repeat' split) <;> rfl
@[simp] theorem State.setReg_steps (s : State) (d : Reg) (v : Word) : (s.setReg d v).steps = s.steps := by
  unfold State.setReg; (repeat' split) <;> rfl
@[simp] theorem State.setReg_schedule (s : State) (d : Reg) (v : Word) : (s.setReg d v).schedule = s.schedule := by
  unfold State.setReg; (repeat' split) <;> rfl
@[simp] theorem State.setReg_endPassed (s : State) (d : Reg) (v : Word) : (s.setReg d v).endPassed = s.endPassed := by
  unfold State.setReg; (repeat' split) <;> rfl

/-! ### retire -/

@[simp] theorem State.retire_gpr (s : State) (d : Reg) : (s.retire d).gpr = s.gpr := by
  unfold State.retire; split <;> rfl
@[simp] theorem State.retire_intlr (s : State) (d : Reg) : (s.retire d).intlr = s.intlr := by
  unfold State.retire; split <;> rfl
@[simp] theorem State.retire_ihdlr (s : State) (d : Reg) : (s.retire d).ihdlr = s.ihdlr := by
  unfold State.retire; split <;> rfl
@[simp] theorem State.retire_sts (s : State) (d : Reg) : (s.retire d).sts = s.sts := by
  unfold State.retire; split <;> rfl
@[simp] theorem State.retire_sp (s : State) (d : Reg) : (s.retire d).sp = s.sp := by
  unfold State.retire; split <;> rfl
@[simp] theorem State.retire_lr (s : State) (d : Reg) : (s.retire d).lr = s.lr := by
  unfold State.retire; split <;> rfl
@[simp] theorem State.retire_bsrc (s : State) (d : Reg) : (s.retire d).bsrc = s.bsrc := by
  unfold State.retire; split <;> rfl
@[simp] theorem State.retire_bdst (s : State) (d : Reg) : (s.retire d).bdst = s.bdst := by
  unfold State.retire; split <;> rfl
@[simp] theorem State.retire_bw (s : State) (d : Reg) : (s.retire d).bw = s.bw := by
  unfold State.retire; split <;> rfl
@[simp] theorem State.retire_bh (s : State) (d : Reg) : (s.retire d).bh = s.bh := by
  unfold State.retire; split <;> rfl
@[simp] theorem State.retire_bsrcSet (s : State) (d : Reg) : (s.retire d).bsrcSet = s.bsrcSet := by
  unfold State.retire; split <;> rfl
@[simp] theorem State.retire_bdstSet (s : State) (d : Reg) : (s.retire d).bdstSet = s.bdstSet := by
  unfold State.retire; split <;> rfl
@[simp] theorem State.retire_bwSet (s : State) (d : Reg) : (s.retire d).bwSet = s.bwSet := by
  unfold State.retire; split <;> rfl
@[simp] theorem State.retire_bhSet (s : State) (d : Reg) : (s.retire d).bhSet = s.bhSet := by
  unfold State.retire; split <;> rfl
@[simp] theorem State.retire_mem (s : State) (d : Reg) : (s.retire d).mem = s.mem := by
  unfold State.retire; split <;> rfl
@[simp] theorem State.retire_fb (s : State) (d : Reg) : (s.retire d).fb = s.fb := by
  unfold State.retire; split <;> rfl
@[simp] theorem State.retire_spr (s : State) (d : Reg) : (s.retire d).spr = s.spr := by
  unfold State.retire; split <;> rfl
@[simp] theorem State.retire_halted (s : State) (d : Reg) : (s.retire d).halted = s.halted := by
  unfold State.retire; split <;> rfl
@[simp] theorem State.retire_params (s : State) (d : Reg) : (s.retire d).params = s.params := by
  unfold State.retire; split <;> rfl
@[simp] theorem State.retire_draws (s : State) (d : Reg) : (s.retire d).draws = s.draws := by
  unfold State.retire; split <;> rfl
@[simp] theorem State.retire_steps (s : State) (d : Reg) : (s.retire d).steps = s.steps := by
  unfold State.retire; split <;> rfl
@[simp] theorem State.retire_schedule (s : State) (d : Reg) : (s.retire d).schedule = s.schedule := by
  unfold State.retire; split <;> rfl
@[simp] theorem State.retire_endPassed (s : State) (d : Reg) : (s.retire d).endPassed = s.endPassed := by
  unfold State.retire; split <;> rfl

theorem State.retire_pc (s : State) (d : Reg) : (s.retire d).pc = if d = Reg.pc then s.pc else s.pc + 1 := by
  unfold State.retire; split <;> rfl

/-! ### The fields of the status register -/

@[simp] theorem stsOf_code (b : Bool) (c : Code) : (stsOf b c).extractLsb' 0 5 = c := by
  cases b <;> revert c <;> decide

@[simp] theorem stsOf_flag (b : Bool) (c : Code) : (stsOf b c)[5] = b := by
  cases b <;> revert c <;> decide

/-- A status register is its two fields. -/
theorem stsOf_eta (v : BitVec 6) : stsOf (v.getLsbD 5) (v.extractLsb' 0 5) = v := by revert v; decide

@[simp] theorem State.code_setCode (s : State) (c : Code) : (s.setCode c).code = c := by simp [State.code]
@[simp] theorem State.intFlag_setCode (s : State) (c : Code) : (s.setCode c).intFlag = s.intFlag := by
  simp [State.intFlag]
@[simp] theorem State.code_setIntFlag (s : State) (b : Bool) : (s.setIntFlag b).code = s.code := by simp [State.code]
@[simp] theorem State.intFlag_setIntFlag (s : State) (b : Bool) : (s.setIntFlag b).intFlag = b := by
  simp [State.intFlag]
@[simp] theorem State.intFlag_arithmeticStatus (s : State) : s.arithmeticStatus.intFlag = s.intFlag := by
  simp [State.intFlag]
@[simp] theorem State.code_takeInterrupt (s : State) (c : BitVec 4) : (s.takeInterrupt c).code = s.code := by
  simp [State.code]
@[simp] theorem State.intFlag_takeInterrupt (s : State) (c : BitVec 4) : (s.takeInterrupt c).intFlag = true := by
  simp [State.intFlag]

/-! ### Registers -/

/-- The numbered registers other than 0 to 25 are 26 to 31. -/
theorem reg_high (r : Reg) (h : ¬ r.val < 26) :
    r = Reg.intlr ∨ r = Reg.ihdlr ∨ r = Reg.pc ∨ r = Reg.sts ∨ r = Reg.sp ∨ r = Reg.lr := by
  revert r; decide

/-- Two states with the same registers read the same. -/
theorem State.getReg_congr (s t : State) (hg : t.gpr = s.gpr) (hi : t.intlr = s.intlr) (hh : t.ihdlr = s.ihdlr)
    (hp : t.pc = s.pc) (hs : t.sts = s.sts) (hsp : t.sp = s.sp) (hl : t.lr = s.lr) (r : Reg) :
    t.getReg r = s.getReg r := by
  unfold State.getReg; rw [hg, hi, hh, hp, hs, hsp, hl]

@[simp] theorem State.getReg_pc (s : State) : s.getReg Reg.pc = s.pc := rfl
@[simp] theorem State.getReg_sts (s : State) : s.getReg Reg.sts = s.sts.setWidth 32 := rfl
@[simp] theorem State.getReg_sp (s : State) : s.getReg Reg.sp = s.sp := rfl
@[simp] theorem State.getReg_lr (s : State) : s.getReg Reg.lr = s.lr := rfl
@[simp] theorem State.getReg_intlr (s : State) : s.getReg Reg.intlr = s.intlr := rfl
@[simp] theorem State.getReg_ihdlr (s : State) : s.getReg Reg.ihdlr = s.ihdlr := rfl

/-- Only register 28 sees the pc. -/
theorem State.getReg_pc_congr (s t : State) (hg : t.gpr = s.gpr) (hi : t.intlr = s.intlr) (hh : t.ihdlr = s.ihdlr)
    (hs : t.sts = s.sts) (hsp : t.sp = s.sp) (hl : t.lr = s.lr) (r : Reg) (hr : r ≠ Reg.pc) :
    t.getReg r = s.getReg r := by
  unfold State.getReg; rw [hg, hi, hh, hs, hsp, hl]; simp [hr]

/-- Only registers 28 and 29 see the pc and the status register. -/
theorem State.getReg_pc_sts_congr (s t : State) (hg : t.gpr = s.gpr) (hi : t.intlr = s.intlr)
    (hh : t.ihdlr = s.ihdlr) (hsp : t.sp = s.sp) (hl : t.lr = s.lr) (r : Reg) (hr : r ≠ Reg.pc)
    (hr' : r ≠ Reg.sts) : t.getReg r = s.getReg r := by
  unfold State.getReg; rw [hg, hi, hh, hsp, hl]; simp [hr, hr']

@[simp] theorem State.getReg_memWrite (s : State) (a v : Word) (r : Reg) :
    (s.memWrite a v).getReg r = s.getReg r := rfl

@[simp] theorem State.getReg_drawn (s : State) (r : Reg) : s.drawn.getReg r = s.getReg r := rfl

theorem State.getReg_advance (s : State) (r : Reg) (h : r ≠ Reg.pc) : s.advance.getReg r = s.getReg r :=
  State.getReg_pc_congr s s.advance rfl rfl rfl rfl rfl rfl r h

theorem State.getReg_retire (s : State) (d r : Reg) (h : r ≠ Reg.pc) : (s.retire d).getReg r = s.getReg r := by
  unfold State.retire; split
  · rfl
  · exact s.getReg_advance r h

theorem State.getReg_arithmeticStatus (s : State) (r : Reg) (h : r ≠ Reg.sts) :
    s.arithmeticStatus.getReg r = s.getReg r := by
  unfold State.getReg; simp [h]

theorem State.getReg_setCode (s : State) (c : Code) (r : Reg) (h : r ≠ Reg.sts) :
    (s.setCode c).getReg r = s.getReg r := by
  unfold State.getReg; simp [h]

/-- A register read after it was written; the status register keeps six bits (10_state.md R20). -/
theorem State.getReg_setReg_same (s : State) (d : Reg) (v : Word) :
    (s.setReg d v).getReg d = if d = Reg.sts then (v.setWidth 6).setWidth 32 else v := by
  by_cases h : d.val < 26
  · have hd : d ≠ Reg.sts := by rintro rfl; exact absurd h (by decide)
    simp [State.getReg, State.setReg, h, hd]
  · rcases reg_high d h with rfl | rfl | rfl | rfl | rfl | rfl <;> rfl

/-- A register read after another was written. -/
theorem State.getReg_setReg_ne (s : State) (d r : Reg) (v : Word) (h : r ≠ d) :
    (s.setReg d v).getReg r = s.getReg r := by
  by_cases hd : d.val < 26
  · by_cases hr : r.val < 26
    · have hne : d.val ≠ r.val := fun e => h (Fin.ext e.symm)
      simp [State.getReg, State.setReg, hd, hr, Vector.getElem_set_ne, hne]
    · rcases reg_high r hr with rfl | rfl | rfl | rfl | rfl | rfl <;>
        simp [State.getReg, State.setReg, hd]
  · by_cases hr : r.val < 26
    · unfold State.getReg
      rw [dif_pos hr, dif_pos hr]
      rcases reg_high d hd with rfl | rfl | rfl | rfl | rfl | rfl <;> rfl
    · rcases reg_high d hd with rfl | rfl | rfl | rfl | rfl | rfl <;>
        rcases reg_high r hr with rfl | rfl | rfl | rfl | rfl | rfl <;>
          first
            | exact absurd rfl h
            | rfl

theorem State.setReg_pc (s : State) (d : Reg) (v : Word) : (s.setReg d v).pc = if d = Reg.pc then v else s.pc := by
  by_cases h : d = Reg.pc
  · subst h; rfl
  · rw [if_neg h]; exact s.getReg_setReg_ne d Reg.pc v (fun e => h e.symm)

theorem State.setReg_sp (s : State) (d : Reg) (v : Word) : (s.setReg d v).sp = if d = Reg.sp then v else s.sp := by
  by_cases h : d = Reg.sp
  · subst h; rfl
  · rw [if_neg h]; exact s.getReg_setReg_ne d Reg.sp v (fun e => h e.symm)

theorem State.setReg_sts (s : State) (d : Reg) (v : Word) :
    (s.setReg d v).sts = if d = Reg.sts then v.setWidth 6 else s.sts := by
  by_cases hd : d.val < 26
  · have h : d ≠ Reg.sts := by rintro rfl; exact absurd hd (by decide)
    simp [State.setReg, hd, h]
  · rcases reg_high d hd with rfl | rfl | rfl | rfl | rfl | rfl <;> rfl

end Sys2Proof.Machine
end

