-- ==== Sys2Proof/Laws/Ops.lean ====
section
/-! SUPPORT. One lemma for each shared operation of the meanings, saying once everything it can do. -/

namespace Sys2Proof.Machine

/-! ### What stays, from equal fields -/

theorem SameSetting.of_eq {s t : State} (h1 : t.halted = s.halted) (h2 : t.params = s.params)
    (h3 : t.steps = s.steps) (h4 : t.schedule = s.schedule) (h5 : t.endPassed = s.endPassed) :
    SameSetting s t := ⟨h1, h2, h3, h4, h5⟩

/-- The graphics half of a frame, from equal fields. -/
theorem SameGraphics.of_eq {s t : State} (hf : t.fb = s.fb) (hs : t.spr = s.spr) (hb : SameBlitter s t)
    (ht : SameSetting s t) : SameGraphics s t :=
  ⟨fun k => by rw [hf], fun k => by rw [hs], hb, ht⟩

/-- A register write, then the end of the instruction, touches no memory, no Blitter register and no setting. -/
theorem sameGraphics_retire_setReg (s : State) (d r : Reg) (v : Word) : SameGraphics s ((s.setReg d v).retire r) :=
  SameGraphics.of_eq (by simp) (by simp) ⟨by simp, by simp, by simp, by simp, by simp, by simp, by simp, by simp⟩
    ⟨by simp, by simp, by simp, by simp, by simp⟩

/-! ### FORMSEL -/

/-- The cover test of FORMSEL decides `Covers` (30_encoding.md R92). -/
theorem formRuleCovers_iff (r : FormRule) (a w : Word) : formRuleCovers r a w = true ↔ Covers r a w := by
  obtain ⟨x, y, t⟩ := r
  cases x <;> cases y <;> simp [formRuleCovers, Covers]

/-! ### Register results -/

/-- `writeBack` is a register write and nothing else. -/
theorem writesRegister_writeBack (d : Reg) (v : Word) (s : State) : WritesRegister d v s (s.writeBack d v) where
  value := by
    unfold State.writeBack heldBy
    by_cases h : d = Reg.pc
    · subst h; rfl
    · rw [State.getReg_retire _ _ _ h, State.getReg_setReg_same]
  pc := fun h => by
    unfold State.writeBack
    rw [State.retire_pc, if_neg h, State.setReg_pc, if_neg h]
  registers := fun r hr => by
    simp only [List.mem_cons, List.not_mem_nil, or_false, not_or] at hr
    unfold State.writeBack
    rw [State.getReg_retire _ _ _ hr.2, State.getReg_setReg_ne _ _ _ _ hr.1]
  memory := fun k => by simp [State.writeBack]
  graphics := sameGraphics_retire_setReg s d d v

/-- A draw before the write is seen by nothing but the draw counter. -/
theorem writesRegister_drawn {d : Reg} {v : Word} {s t : State} (h : WritesRegister d v s.drawn t) :
    WritesRegister d v s t where
  value := h.value
  pc := h.pc
  registers := h.registers
  memory := h.memory
  graphics := ⟨h.graphics.screen, h.graphics.sprites,
    ⟨h.graphics.blitter.bsrc, h.graphics.blitter.bdst, h.graphics.blitter.bw, h.graphics.blitter.bh,
      h.graphics.blitter.bsrcSet, h.graphics.blitter.bdstSet, h.graphics.blitter.bwSet, h.graphics.blitter.bhSet⟩,
    ⟨h.graphics.setting.halted, h.graphics.setting.params, h.graphics.setting.steps, h.graphics.setting.schedule,
      h.graphics.setting.endPassed⟩⟩

/-- The end of every arithmetic instruction (40_alu_arithmetic.md R112, R115). -/
theorem finishArithmetic_spec (d : Reg) (v : Word) (s : State) :
    ∃ t, finishArithmetic d v s = .next t ∧ WritesArithmetic d v s t := by
  refine ⟨_, rfl, ?_, ?_, ?_, ?_, ?_, ?_, ?_⟩
  · intro h
    by_cases hp : d = Reg.pc
    · subst hp; simp [State.retire, State.setReg_pc]
    · rw [State.getReg_retire _ _ _ hp, State.getReg_arithmeticStatus _ _ h, State.getReg_setReg_same, if_neg h]
  · intro h
    simp [State.intFlag, State.setReg_sts, h]
  · rintro rfl
    simp [State.intFlag, State.setReg_sts]
  · intro h
    rw [State.retire_pc, if_neg h]
    simp [State.setReg_pc, h]
  · intro r hr
    simp only [List.mem_cons, List.not_mem_nil, or_false, not_or] at hr
    rw [State.getReg_retire _ _ _ hr.2.1, State.getReg_arithmeticStatus _ _ hr.2.2,
      State.getReg_setReg_ne _ _ _ _ hr.1]
  · intro k; simp
  · exact SameGraphics.of_eq (by simp) (by simp)
      ⟨by simp, by simp, by simp, by simp, by simp, by simp, by simp, by simp⟩
      ⟨by simp, by simp, by simp, by simp, by simp⟩

/-- An integer division by a divisor that is not zero, whose quotient fits. -/
theorem divide_spec (q : Word → Word → Option Word) (d : Reg) (a b v : Word) (s : State) (hb : b ≠ 0)
    (hq : q a b = some v) : ∃ t, divide q d a b s = .next t ∧ WritesArithmetic d v s t := by
  unfold divide
  rw [if_neg hb, hq]
  exact finishArithmetic_spec d v s

/-- An integer division whose quotient is ANY_32. -/
theorem divide_any_spec (q : Word → Word → Option Word) (d : Reg) (a b : Word) (s : State) (hb : b ≠ 0)
    (hq : q a b = none) : ∃ v t, divide q d a b s = .next t ∧ WritesArithmetic d v s t := by
  unfold divide
  rw [if_neg hb, hq]
  exact ⟨_, finishArithmetic_spec d _ s⟩

/-- An integer division by zero (R113). -/
theorem divide_zero_spec (q : Word → Word → Option Word) (d : Reg) (a : Word) (s : State) :
    (s.params.divZero = .fault → divide q d a 0 s = .fault (.divideByZero s.pc)) ∧
      (s.params.divZero = .any → ∃ v t, divide q d a 0 s = .next t ∧ WritesArithmetic d v s t) := by
  constructor <;> intro h <;> simp only [divide, if_true, h]
  exact ⟨_, finishArithmetic_spec d _ s⟩

/-- A shift whose result is defined (41_alu_general.md R155). -/
theorem shift_spec (rule : Word → Nat → Option Word) (d : Reg) (n : Nat) (s : State) (v : Word)
    (h : shiftBy rule (s.getReg d) n = some v) :
    ∃ t, shift rule d n s = .next t ∧ WritesRegister d v s t := by
  unfold shift
  rw [h]
  exact ⟨_, rfl, writesRegister_writeBack d v s⟩

/-- A shift whose result is ANY_32. -/
theorem shift_any_spec (rule : Word → Nat → Option Word) (d : Reg) (n : Nat) (s : State)
    (h : shiftBy rule (s.getReg d) n = none) :
    ∃ v t, shift rule d n s = .next t ∧ WritesRegister d v s t := by
  unfold shift
  rw [h]
  exact ⟨_, _, rfl, writesRegister_drawn (writesRegister_writeBack d _ s.drawn)⟩

/-- A compare (41_alu_general.md R172). -/
theorem finishCompare_spec (c : Code) (s : State) : ∃ t, finishCompare c s = .next t ∧ WritesCode c s t := by
  refine ⟨_, rfl, ?_, ?_, rfl, ?_, fun k => rfl, ?_⟩
  · simp [State.code]
  · simp [State.intFlag]
  · intro r hr
    simp only [List.mem_cons, List.not_mem_nil, or_false, not_or] at hr
    rw [State.getReg_advance _ _ hr.1, State.getReg_setCode _ _ _ hr.2]
  · exact SameGraphics.of_eq rfl rfl ⟨rfl, rfl, rfl, rfl, rfl, rfl, rfl, rfl⟩ ⟨rfl, rfl, rfl, rfl, rfl⟩

/-! ### Memory instructions -/

/-- A load (42_memory_instructions.md R192, R193). -/
theorem load_spec (d : Reg) (ea : Word) (s : State) :
    ∃ t, load d ea s = .next t ∧ WritesRegister d (s.memRead ea) s t :=
  ⟨_, rfl, writesRegister_writeBack d _ s⟩

/-- The four bytes of a word, joined, are the word. -/
theorem wordByte_join (v : Word) : wordByte v 3 ++ wordByte v 2 ++ wordByte v 1 ++ wordByte v 0 = v := by
  apply BitVec.eq_of_getLsbD_eq
  intro i hi
  unfold wordByte
  simp only [BitVec.getLsbD_append, BitVec.getLsbD_extractLsb']
  split
  · rw [show 8 * 0 + i = i by omega]; simp_all
  · split
    · rw [show 8 * 1 + (i - 8) = i by omega]; simp_all
    · split
      · rw [show 8 * 2 + (i - 8 - 8) = i by omega]; simp_all
      · rw [show 8 * 3 + (i - 8 - 8 - 8) = i by omega]; simp; omega

/-- A word store, read back whole, and byte by byte elsewhere. -/
theorem storesWord_writeWord (m : List Host.Cell) (a v : Word) :
    Memory.readWord (Memory.writeWord m a v) a = v ∧
      ∀ k, (∀ i < 4, k ≠ byteAddr a i) → Memory.read (Memory.writeWord m a v) k = Memory.read m k := by
  constructor
  · have e : ∀ i j : Nat, byteAddr a i = byteAddr a j ↔ i = j := fun i j => by unfold byteAddr; omega
    unfold Memory.readWord Memory.writeWord
    simp only [Memory.read_write, e]
    simpa using wordByte_join v
  · intro k hk
    unfold Memory.writeWord
    rw [Memory.read_write_ne _ _ _ _ (hk 3 (by decide)), Memory.read_write_ne _ _ _ _ (hk 2 (by decide)),
      Memory.read_write_ne _ _ _ _ (hk 1 (by decide)), Memory.read_write_ne _ _ _ _ (hk 0 (by decide))]

/-- A store (R194, R195). -/
theorem store_spec (ea v : Word) (s : State) : ∃ t, store ea v s = .next t ∧ WritesWord [] ea v s t := by
  refine ⟨_, rfl, storesWord_writeWord s.mem ea v, rfl, ?_, ?_⟩
  · intro r hr
    simp only [List.mem_cons, List.not_mem_nil, or_false] at hr
    rw [State.getReg_advance _ _ hr, State.getReg_memWrite]
  · exact SameGraphics.of_eq rfl rfl ⟨rfl, rfl, rfl, rfl, rfl, rfl, rfl, rfl⟩ ⟨rfl, rfl, rfl, rfl, rfl⟩

/-! ### Interrupts -/

/-- Taking an interrupt (60_exceptions.md R405). -/
theorem entersHandler_takeInterrupt (code : BitVec 4) (s : State) : EntersHandler code s (s.takeInterrupt code) where
  link := rfl
  pc := rfl
  flag := by simp
  condition := by simp
  mailbox := storesWord_writeWord s.mem mailbox _
  registers := fun r hr => by
    simp only [List.mem_cons, List.not_mem_nil, or_false, not_or] at hr
    unfold State.getReg
    simp [hr.1, hr.2.1, hr.2.2]
  graphics := SameGraphics.of_eq rfl rfl ⟨rfl, rfl, rfl, rfl, rfl, rfl, rfl, rfl⟩ ⟨rfl, rfl, rfl, rfl, rfl⟩

/-- An INT fetched from memory (43_control.md R219). -/
theorem performInterrupt_spec (code : BitVec 4) (s : State) :
    (s.params.intFromMemory = .fault →
      performInterrupt code s = .fault (.internalInstruction s.pc (s.memRead s.pc))) ∧
      (s.params.intFromMemory = .execute →
        performInterrupt code s =
          .next (if s.interruptAccepted then s.takeInterrupt code else s.advance)) := by
  constructor <;> intro h <;> simp only [performInterrupt, h]
  split <;> rfl

/-! ### Graphics -/

/-- GLOD's copy keeps the canonical form of the sprite library. -/
theorem glodCopy_wf (s : State) (d : BitVec 12) (a : Word) (n : Nat) (h : Memory.wf s.spr = true) :
    Memory.wf (glodCopy s d a n) = true := by
  induction n with
  | zero => exact h
  | succ k ih => exact Memory.wf_write _ _ _ ih

/-- GLOD's copy stays inside the sprite library. -/
theorem glodCopy_below (s : State) (d : BitVec 12) (a : Word) (n : Nat) (h : Memory.below (2 ^ 12) s.spr = true) :
    Memory.below (2 ^ 12) (glodCopy s d a n) = true := by
  induction n with
  | zero => exact h
  | succ k ih => exact Memory.below_write _ _ _ _ (BitVec.isLt _) ih

/-- BLIT keeps the canonical form of the frame buffer. -/
theorem blitRow_wf (s : State) (op : BitVec 4) (mask : Byte) (fb : List Host.Cell) (r n : Nat)
    (h : Memory.wf fb = true) : Memory.wf (blitRow s op mask fb r n) = true := by
  induction n with
  | zero => exact h
  | succ k ih => exact Memory.wf_write _ _ _ ih

theorem blitRow_below (s : State) (op : BitVec 4) (mask : Byte) (fb : List Host.Cell) (r n : Nat)
    (h : Memory.below (2 ^ 16) fb = true) : Memory.below (2 ^ 16) (blitRow s op mask fb r n) = true := by
  induction n with
  | zero => exact h
  | succ k ih => exact Memory.below_write _ _ _ _ (BitVec.isLt _) ih

theorem blitRows_wf (s : State) (op : BitVec 4) (mask : Byte) (n : Nat) (h : Memory.wf s.fb = true) :
    Memory.wf (blitRows s op mask n) = true := by
  induction n with
  | zero => exact h
  | succ k ih => exact blitRow_wf _ _ _ _ _ _ ih

theorem blitRows_below (s : State) (op : BitVec 4) (mask : Byte) (n : Nat)
    (h : Memory.below (2 ^ 16) s.fb = true) : Memory.below (2 ^ 16) (blitRows s op mask n) = true := by
  induction n with
  | zero => exact h
  | succ k ih => exact blitRow_below _ _ _ _ _ _ ih

/-- One byte of the sprite library after GLOD's copy of `n` bytes: the byte the copy brings, or the old one. -/
theorem read_glodCopy (s : State) (d : BitVec 12) (a : Word) (n : Nat) (hn : n ≤ 2 ^ 12) (k : Nat) (hk : k < n) :
    Memory.read (glodCopy s d a n) (d + BitVec.ofNat 12 k).toNat =
      wordByte (s.memRead (a + BitVec.ofNat 32 (k / 4))) (k % 4) := by
  induction n with
  | zero => omega
  | succ m ih =>
    unfold glodCopy
    by_cases h : k = m
    · subst h; exact Memory.read_write_same _ _ _
    · rw [Memory.read_write_ne _ _ _ _ ?_]
      · exact ih (by omega) (by omega)
      · intro e
        have := congrArg (· % 2 ^ 12) e
        simp only [BitVec.toNat_add, BitVec.toNat_ofNat] at this
        omega

theorem read_glodCopy_ne (s : State) (d : BitVec 12) (a : Word) (n j : Nat)
    (h : ∀ k < n, j ≠ (d + BitVec.ofNat 12 k).toNat) :
    Memory.read (glodCopy s d a n) j = Memory.read s.spr j := by
  induction n with
  | zero => rfl
  | succ m ih =>
    unfold glodCopy
    rw [Memory.read_write_ne _ _ _ _ (h m (by omega))]
    exact ih fun k hk => h k (by omega)

/-- A byte of the frame buffer that a row's pixels do not touch. -/
theorem read_blitRow_ne (s : State) (op : BitVec 4) (mask : Byte) (fb : List Host.Cell) (r n j : Nat)
    (h : ∀ c < n, j ≠ (s.screenAddress r c).toNat) :
    Memory.read (blitRow s op mask fb r n) j = Memory.read fb j := by
  induction n with
  | zero => rfl
  | succ m ih =>
    unfold blitRow
    rw [Memory.read_write_ne _ _ _ _ (h m (by omega))]
    exact ih fun c hc => h c (by omega)

/-! ### One step -/

/-- Everything a step can be (70_reset_and_hazards.md R444, R446, R447). -/
theorem step_cases (s : State) :
    (s.ended = true ∧ step s = .next s) ∨
      (s.ended = false ∧ s.hostMoveDue = true ∧ step s = .next s.hostMove) ∨
        (s.ended = false ∧ s.hostMoveDue = false ∧ step s = s.runInstruction) := by
  unfold step
  cases s.ended <;> cases s.hostMoveDue <;> simp

/-- A completed instruction answers a next state exactly when its meaning does. -/
theorem completed_next (r : Result) (t : State) (h : completed r = .next t) :
    ∃ u, r = .next u ∧ t = { u with steps := u.steps + 1, endPassed := false } := by
  cases r with
  | next u => exact ⟨u, rfl, by simpa [completed] using h.symm⟩
  | fault f => cases h
  | refused f => cases h

/-- A run of one more step, where the first step answers a next state. -/
theorem run_succ_next (n : Nat) (s t : State) (h : step s = .next t) :
    Host.Core.run Sys2Proof.core (n + 1) s = Host.Core.run Sys2Proof.core n t := by
  have h' : Sys2Proof.core.step s = Host.Outcome.next t := h
  simp only [Host.Core.run]
  split <;> rename_i u hu <;> rw [h'] at hu <;> cases hu
  rfl

end Sys2Proof.Machine
end

