-- ==== Sys2Proof/Laws/PerInstr.lean ====
section
/-! SUPPORT. Statements made per instruction: the encoder's word has the fixed bits that the instruction's row of
spec/opcode_table.json states. -/

namespace Sys2Proof.Laws

/-! ### The fixed bits of each format -/

theorem encRRR_row (op : Nat) (d a b : Reg) (hop : op < 64) :
    encRRR op d a b &&& 0x00001FE0 = BitVec.ofNat 32 (0 + op * 2 ^ 7) := by
  unfold encRRR encHead
  rw [and_aluMask, fixed_bits _ 8 (0 + op * 4) (by rw [nsCode_toNat]; omega)]
  interval_cases op <;> rfl

theorem encRRI_row (op : Nat) (d a : Reg) (i : BitVec 9) (hop : op < 64) :
    encRRI op d a i &&& 0x00001FE0 = BitVec.ofNat 32 (0 + op * 2 ^ 7) := by
  unfold encRRI encHead
  rw [and_aluMask, fixed_bits _ 8 (0 + op * 4) (by rw [nsCode_toNat]; omega)]
  interval_cases op <;> rfl

theorem encRR_row (op : Nat) (d a : Reg) (hop : op < 64) :
    encRR op d a &&& 0x00001FE0 = BitVec.ofNat 32 (0 + op * 2 ^ 7) := by
  unfold encRR encHead
  rw [and_aluMask, fixed_bits _ 8 (0 + op * 4) (by rw [nsCode_toNat]; omega)]
  interval_cases op <;> rfl

theorem encSHI_row (op : Nat) (d : Reg) (i : BitVec 14) (hop : op < 64) :
    encSHI op d i &&& 0x00001FE0 = BitVec.ofNat 32 (0 + op * 2 ^ 7) := by
  unfold encSHI encHead
  rw [and_aluMask, fixed_bits _ 8 (0 + op * 4) (by rw [nsCode_toNat]; omega)]
  interval_cases op <;> rfl

theorem encMRR_row (op : Nat) (r a : Reg) (hop : op < 8) :
    encMRR op r a &&& 0x000003E0 = BitVec.ofNat 32 (32 + op * 2 ^ 7) := by
  unfold encMRR encHead
  rw [and_memoryMask, fixed_bits _ 5 (1 + op * 4) (by rw [nsCode_toNat]; omega)]
  interval_cases op <;> rfl

theorem encMRI_row (op : Nat) (r : Reg) (i : BitVec 17) (hop : op < 8) :
    encMRI op r i &&& 0x000003E0 = BitVec.ofNat 32 (32 + op * 2 ^ 7) := by
  unfold encMRI encHead
  rw [and_memoryMask, fixed_bits _ 5 (1 + op * 4) (by rw [nsCode_toNat]; omega)]
  interval_cases op <;> rfl

theorem encMR_row (op : Nat) (r : Reg) (hop : op < 8) :
    encMR op r &&& 0x000003E0 = BitVec.ofNat 32 (32 + op * 2 ^ 7) := by
  unfold encMR encHead
  rw [and_memoryMask, fixed_bits _ 5 (1 + op * 4) (by rw [nsCode_toNat]; omega)]
  interval_cases op <;> rfl

theorem encCR_row (op : Nat) (c : Code) (r : Reg) (hop : op < 4) :
    encCR op c r &&& 0x000001E0 = BitVec.ofNat 32 (64 + op * 2 ^ 7) := by
  unfold encCR encHead
  rw [and_controlMask, fixed_bits _ 4 (2 + op * 4) (by have := c.isLt; omega)]
  interval_cases op <;> rfl

theorem encCI_row (op : Nat) (c : Code) (i : BitVec 23) (hop : op < 4) :
    encCI op c i &&& 0x000001E0 = BitVec.ofNat 32 (64 + op * 2 ^ 7) := by
  unfold encCI encHead
  rw [and_controlMask, fixed_bits _ 4 (2 + op * 4) (by have := c.isLt; omega)]
  interval_cases op <;> rfl

theorem encCI4_row (op : Nat) (code : BitVec 4) (hop : op < 4) :
    encCI4 op code &&& 0x000001E0 = BitVec.ofNat 32 (64 + op * 2 ^ 7) := by
  unfold encCI4 encHead
  rw [and_controlMask, fixed_bits _ 4 (2 + op * 4) (by rw [nsCode_toNat]; omega)]
  interval_cases op <;> rfl

theorem encC0_row (op : Nat) (hop : op < 4) :
    encC0 op &&& 0x000001E0 = BitVec.ofNat 32 (64 + op * 2 ^ 7) := by
  unfold encC0 encHead
  rw [and_controlMask, fixed_bits _ 4 (2 + op * 4) (by rw [nsCode_toNat]; omega)]
  interval_cases op <;> rfl

theorem encGRRR_row (op : Nat) (a b c : Reg) (hop : op < 4) :
    encGRRR op a b c &&& 0x000001E0 = BitVec.ofNat 32 (96 + op * 2 ^ 7) := by
  unfold encGRRR encHead
  rw [and_controlMask, fixed_bits _ 4 (3 + op * 4) (by rw [nsCode_toNat]; omega)]
  interval_cases op <;> rfl

theorem encGRR_row (op : Nat) (a b : Reg) (hop : op < 4) :
    encGRR op a b &&& 0x000001E0 = BitVec.ofNat 32 (96 + op * 2 ^ 7) := by
  unfold encGRR encHead
  rw [and_controlMask, fixed_bits _ 4 (3 + op * 4) (by rw [nsCode_toNat]; omega)]
  interval_cases op <;> rfl

theorem encGI77_row (op : Nat) (w h : BitVec 7) (hop : op < 4) :
    encGI77 op w h &&& 0x000001E0 = BitVec.ofNat 32 (96 + op * 2 ^ 7) := by
  unfold encGI77 encHead
  rw [and_controlMask, fixed_bits _ 4 (3 + op * 4) (by rw [nsCode_toNat]; omega)]
  interval_cases op <;> rfl

theorem encGI48_row (op : Nat) (o : BitVec 4) (m : BitVec 8) (hop : op < 4) :
    encGI48 op o m &&& 0x000001E0 = BitVec.ofNat 32 (96 + op * 2 ^ 7) := by
  unfold encGI48 encHead
  rw [and_controlMask, fixed_bits _ 4 (3 + op * 4) (by rw [nsCode_toNat]; omega)]
  interval_cases op <;> rfl

/-! ### The family -/

/-- The mask and the match of an instruction's row, as the table writes them. -/
def rowOf : Instr → Word × Word
  | .addui _ _ _ => (0x00001FE0, 0x00000080)
  | .addsi _ _ _ => (0x00001FE0, 0x00000100)
  | .addf _ _ _ => (0x00001FE0, 0x00000180)
  | .adduiImm _ _ _ => (0x00001FE0, 0x00000200)
  | .addsiImm _ _ _ => (0x00001FE0, 0x00000280)
  | .addfImm _ _ _ => (0x00001FE0, 0x00000300)
  | .subui _ _ _ => (0x00001FE0, 0x00000380)
  | .subsi _ _ _ => (0x00001FE0, 0x00000400)
  | .subf _ _ _ => (0x00001FE0, 0x00000480)
  | .subuiImm _ _ _ => (0x00001FE0, 0x00000500)
  | .subsiImm _ _ _ => (0x00001FE0, 0x00000580)
  | .subfImm _ _ _ => (0x00001FE0, 0x00000600)
  | .divui _ _ _ => (0x00001FE0, 0x00000680)
  | .divsi _ _ _ => (0x00001FE0, 0x00000700)
  | .divf _ _ _ => (0x00001FE0, 0x00000780)
  | .divuiImm _ _ _ => (0x00001FE0, 0x00000800)
  | .divsiImm _ _ _ => (0x00001FE0, 0x00000880)
  | .divfImm _ _ _ => (0x00001FE0, 0x00000900)
  | .mltui _ _ _ => (0x00001FE0, 0x00000980)
  | .mltsi _ _ _ => (0x00001FE0, 0x00000A00)
  | .mltf _ _ _ => (0x00001FE0, 0x00000A80)
  | .mltuiImm _ _ _ => (0x00001FE0, 0x00000B00)
  | .mltsiImm _ _ _ => (0x00001FE0, 0x00000B80)
  | .mltfImm _ _ _ => (0x00001FE0, 0x00000C00)
  | .mv _ _ => (0x00001FE0, 0x00000C80)
  | .cmpui _ _ => (0x00001FE0, 0x00000D00)
  | .cmpsi _ _ => (0x00001FE0, 0x00000D80)
  | .cmpf _ _ => (0x00001FE0, 0x00000E00)
  | .asl _ _ => (0x00001FE0, 0x00000E80)
  | .asr _ _ => (0x00001FE0, 0x00000F00)
  | .aslImm _ _ => (0x00001FE0, 0x00000F80)
  | .asrImm _ _ => (0x00001FE0, 0x00001000)
  | .lsl _ _ => (0x00001FE0, 0x00001080)
  | .lslImm _ _ => (0x00001FE0, 0x00001100)
  | .lsr _ _ => (0x00001FE0, 0x00001180)
  | .lsrImm _ _ => (0x00001FE0, 0x00001200)
  | .and _ _ _ => (0x00001FE0, 0x00001280)
  | .andImm _ _ _ => (0x00001FE0, 0x00001300)
  | .or _ _ _ => (0x00001FE0, 0x00001380)
  | .orImm _ _ _ => (0x00001FE0, 0x00001400)
  | .xor _ _ _ => (0x00001FE0, 0x00001480)
  | .xorImm _ _ _ => (0x00001FE0, 0x00001500)
  | .not _ _ => (0x00001FE0, 0x00001580)
  | .ldr _ _ => (0x000003E0, 0x00000020)
  | .ldrImm _ _ => (0x000003E0, 0x000000A0)
  | .str _ _ => (0x000003E0, 0x00000120)
  | .strImm _ _ => (0x000003E0, 0x000001A0)
  | .push _ => (0x000003E0, 0x00000220)
  | .pop _ => (0x000003E0, 0x000002A0)
  | .jmp _ _ => (0x000001E0, 0x00000040)
  | .jmpImm _ _ => (0x000001E0, 0x00000040)
  | .jmps _ _ => (0x000001E0, 0x00000040)
  | .jmpsImm _ _ => (0x000001E0, 0x00000040)
  | .sih _ => (0x000001E0, 0x000000C0)
  | .int _ => (0x000001E0, 0x00000140)
  | .intImm _ => (0x000001E0, 0x00000140)
  | .ijmp => (0x000001E0, 0x000001C0)
  | .glod _ _ _ => (0x000001E0, 0x00000060)
  | .blitmem _ _ => (0x000001E0, 0x000000E0)
  | .blitdims _ _ => (0x000001E0, 0x00000160)
  | .blitdimsImm _ _ => (0x000001E0, 0x00000160)
  | .blit _ _ => (0x000001E0, 0x000001E0)
  | .blitImm _ _ => (0x000001E0, 0x000001E0)

/-- Under its row's mask, the word of the instruction is its row's match. -/
def TableRow.Statement (i : Instr) : Prop := encode i &&& (rowOf i).1 = (rowOf i).2

theorem TableRow.addui (dest op1 op2 : Reg) : TableRow.Statement (.addui dest op1 op2) :=
  encRRR_row 1 dest op1 op2 (by decide)

theorem TableRow.addsi (dest op1 op2 : Reg) : TableRow.Statement (.addsi dest op1 op2) :=
  encRRR_row 2 dest op1 op2 (by decide)

theorem TableRow.addf (dest op1 op2 : Reg) : TableRow.Statement (.addf dest op1 op2) :=
  encRRR_row 3 dest op1 op2 (by decide)

theorem TableRow.adduiImm (dest op1 : Reg) (imm : BitVec 9) : TableRow.Statement (.adduiImm dest op1 imm) :=
  encRRI_row 4 dest op1 imm (by decide)

theorem TableRow.addsiImm (dest op1 : Reg) (imm : BitVec 9) : TableRow.Statement (.addsiImm dest op1 imm) :=
  encRRI_row 5 dest op1 imm (by decide)

theorem TableRow.addfImm (dest op1 : Reg) (imm : BitVec 9) : TableRow.Statement (.addfImm dest op1 imm) :=
  encRRI_row 6 dest op1 imm (by decide)

theorem TableRow.subui (dest op1 op2 : Reg) : TableRow.Statement (.subui dest op1 op2) :=
  encRRR_row 7 dest op1 op2 (by decide)

theorem TableRow.subsi (dest op1 op2 : Reg) : TableRow.Statement (.subsi dest op1 op2) :=
  encRRR_row 8 dest op1 op2 (by decide)

theorem TableRow.subf (dest op1 op2 : Reg) : TableRow.Statement (.subf dest op1 op2) :=
  encRRR_row 9 dest op1 op2 (by decide)

theorem TableRow.subuiImm (dest op1 : Reg) (imm : BitVec 9) : TableRow.Statement (.subuiImm dest op1 imm) :=
  encRRI_row 10 dest op1 imm (by decide)

theorem TableRow.subsiImm (dest op1 : Reg) (imm : BitVec 9) : TableRow.Statement (.subsiImm dest op1 imm) :=
  encRRI_row 11 dest op1 imm (by decide)

theorem TableRow.subfImm (dest op1 : Reg) (imm : BitVec 9) : TableRow.Statement (.subfImm dest op1 imm) :=
  encRRI_row 12 dest op1 imm (by decide)

theorem TableRow.divui (dest op1 op2 : Reg) : TableRow.Statement (.divui dest op1 op2) :=
  encRRR_row 13 dest op1 op2 (by decide)

theorem TableRow.divsi (dest op1 op2 : Reg) : TableRow.Statement (.divsi dest op1 op2) :=
  encRRR_row 14 dest op1 op2 (by decide)

theorem TableRow.divf (dest op1 op2 : Reg) : TableRow.Statement (.divf dest op1 op2) :=
  encRRR_row 15 dest op1 op2 (by decide)

theorem TableRow.divuiImm (dest op1 : Reg) (imm : BitVec 9) : TableRow.Statement (.divuiImm dest op1 imm) :=
  encRRI_row 16 dest op1 imm (by decide)

theorem TableRow.divsiImm (dest op1 : Reg) (imm : BitVec 9) : TableRow.Statement (.divsiImm dest op1 imm) :=
  encRRI_row 17 dest op1 imm (by decide)

theorem TableRow.divfImm (dest op1 : Reg) (imm : BitVec 9) : TableRow.Statement (.divfImm dest op1 imm) :=
  encRRI_row 18 dest op1 imm (by decide)

theorem TableRow.mltui (dest op1 op2 : Reg) : TableRow.Statement (.mltui dest op1 op2) :=
  encRRR_row 19 dest op1 op2 (by decide)

theorem TableRow.mltsi (dest op1 op2 : Reg) : TableRow.Statement (.mltsi dest op1 op2) :=
  encRRR_row 20 dest op1 op2 (by decide)

theorem TableRow.mltf (dest op1 op2 : Reg) : TableRow.Statement (.mltf dest op1 op2) :=
  encRRR_row 21 dest op1 op2 (by decide)

theorem TableRow.mltuiImm (dest op1 : Reg) (imm : BitVec 9) : TableRow.Statement (.mltuiImm dest op1 imm) :=
  encRRI_row 22 dest op1 imm (by decide)

theorem TableRow.mltsiImm (dest op1 : Reg) (imm : BitVec 9) : TableRow.Statement (.mltsiImm dest op1 imm) :=
  encRRI_row 23 dest op1 imm (by decide)

theorem TableRow.mltfImm (dest op1 : Reg) (imm : BitVec 9) : TableRow.Statement (.mltfImm dest op1 imm) :=
  encRRI_row 24 dest op1 imm (by decide)

theorem TableRow.mv (dest src : Reg) : TableRow.Statement (.mv dest src) :=
  encRR_row 25 dest src (by decide)

theorem TableRow.cmpui (op1 op2 : Reg) : TableRow.Statement (.cmpui op1 op2) :=
  encRR_row 26 op1 op2 (by decide)

theorem TableRow.cmpsi (op1 op2 : Reg) : TableRow.Statement (.cmpsi op1 op2) :=
  encRR_row 27 op1 op2 (by decide)

theorem TableRow.cmpf (op1 op2 : Reg) : TableRow.Statement (.cmpf op1 op2) :=
  encRR_row 28 op1 op2 (by decide)

theorem TableRow.asl (dest op1 : Reg) : TableRow.Statement (.asl dest op1) :=
  encRR_row 29 dest op1 (by decide)

theorem TableRow.asr (dest op1 : Reg) : TableRow.Statement (.asr dest op1) :=
  encRR_row 30 dest op1 (by decide)

theorem TableRow.aslImm (dest : Reg) (imm : BitVec 14) : TableRow.Statement (.aslImm dest imm) :=
  encSHI_row 31 dest imm (by decide)

theorem TableRow.asrImm (dest : Reg) (imm : BitVec 14) : TableRow.Statement (.asrImm dest imm) :=
  encSHI_row 32 dest imm (by decide)

theorem TableRow.lsl (dest op1 : Reg) : TableRow.Statement (.lsl dest op1) :=
  encRR_row 33 dest op1 (by decide)

theorem TableRow.lslImm (dest : Reg) (imm : BitVec 14) : TableRow.Statement (.lslImm dest imm) :=
  encSHI_row 34 dest imm (by decide)

theorem TableRow.lsr (dest op1 : Reg) : TableRow.Statement (.lsr dest op1) :=
  encRR_row 35 dest op1 (by decide)

theorem TableRow.lsrImm (dest : Reg) (imm : BitVec 14) : TableRow.Statement (.lsrImm dest imm) :=
  encSHI_row 36 dest imm (by decide)

theorem TableRow.and (dest op1 op2 : Reg) : TableRow.Statement (.and dest op1 op2) :=
  encRRR_row 37 dest op1 op2 (by decide)

theorem TableRow.andImm (dest op1 : Reg) (imm : BitVec 9) : TableRow.Statement (.andImm dest op1 imm) :=
  encRRI_row 38 dest op1 imm (by decide)

theorem TableRow.or (dest op1 op2 : Reg) : TableRow.Statement (.or dest op1 op2) :=
  encRRR_row 39 dest op1 op2 (by decide)

theorem TableRow.orImm (dest op1 : Reg) (imm : BitVec 9) : TableRow.Statement (.orImm dest op1 imm) :=
  encRRI_row 40 dest op1 imm (by decide)

theorem TableRow.xor (dest op1 op2 : Reg) : TableRow.Statement (.xor dest op1 op2) :=
  encRRR_row 41 dest op1 op2 (by decide)

theorem TableRow.xorImm (dest op1 : Reg) (imm : BitVec 9) : TableRow.Statement (.xorImm dest op1 imm) :=
  encRRI_row 42 dest op1 imm (by decide)

theorem TableRow.not (dest op1 : Reg) : TableRow.Statement (.not dest op1) :=
  encRR_row 43 dest op1 (by decide)

theorem TableRow.ldr (dest addr : Reg) : TableRow.Statement (.ldr dest addr) :=
  encMRR_row 0 dest addr (by decide)

theorem TableRow.ldrImm (dest : Reg) (imm : BitVec 17) : TableRow.Statement (.ldrImm dest imm) :=
  encMRI_row 1 dest imm (by decide)

theorem TableRow.str (src addr : Reg) : TableRow.Statement (.str src addr) :=
  encMRR_row 2 src addr (by decide)

theorem TableRow.strImm (src : Reg) (imm : BitVec 17) : TableRow.Statement (.strImm src imm) :=
  encMRI_row 3 src imm (by decide)

theorem TableRow.push (src : Reg) : TableRow.Statement (.push src) :=
  encMR_row 4 src (by decide)

theorem TableRow.pop (dest : Reg) : TableRow.Statement (.pop dest) :=
  encMR_row 5 dest (by decide)

theorem TableRow.jmp (cond : Code) (addr : Reg) : TableRow.Statement (.jmp cond addr) :=
  encCR_row 0 cond addr (by decide)

theorem TableRow.jmpImm (cond : Code) (imm : BitVec 23) : TableRow.Statement (.jmpImm cond imm) :=
  encCI_row 0 cond imm (by decide)

theorem TableRow.jmps (cond : Code) (addr : Reg) : TableRow.Statement (.jmps cond addr) :=
  encCR_row 0 cond addr (by decide)

theorem TableRow.jmpsImm (cond : Code) (imm : BitVec 23) : TableRow.Statement (.jmpsImm cond imm) :=
  encCI_row 0 cond imm (by decide)

theorem TableRow.sih (addr : Reg) : TableRow.Statement (.sih addr) :=
  encCR_row 1 nsCode addr (by decide)

theorem TableRow.int (code : Reg) : TableRow.Statement (.int code) :=
  encCR_row 2 nsCode code (by decide)

theorem TableRow.intImm (code : BitVec 4) : TableRow.Statement (.intImm code) :=
  encCI4_row 2 code (by decide)

theorem TableRow.ijmp : TableRow.Statement (.ijmp) :=
  encC0_row 3 (by decide)

theorem TableRow.glod (dest src len : Reg) : TableRow.Statement (.glod dest src len) :=
  encGRRR_row 0 dest src len (by decide)

theorem TableRow.blitmem (src dest : Reg) : TableRow.Statement (.blitmem src dest) :=
  encGRR_row 1 src dest (by decide)

theorem TableRow.blitdims (width height : Reg) : TableRow.Statement (.blitdims width height) :=
  encGRR_row 2 width height (by decide)

theorem TableRow.blitdimsImm (width height : BitVec 7) : TableRow.Statement (.blitdimsImm width height) :=
  encGI77_row 2 width height (by decide)

theorem TableRow.blit (op mask : Reg) : TableRow.Statement (.blit op mask) :=
  encGRR_row 3 op mask (by decide)

theorem TableRow.blitImm (op : BitVec 4) (mask : BitVec 8) : TableRow.Statement (.blitImm op mask) :=
  encGI48_row 3 op mask (by decide)

end Sys2Proof.Laws
end

