-- ==== Sys2Proof/WellFormed.lean ====
section
/-! DEFINITION. Which instructions an E1 assembler can write. Register numbers and field widths are held by the types;
two fields have unassigned values that no mnemonic spells: the Condition of a jump (10_state.md R22, 30_encoding.md
R105) and the code of INT (60_exceptions.md R403, 30_encoding.md R106). The machine runs an instruction with such a
value all the same (30_encoding.md R96, 60_exceptions.md R403): well-formedness is a check on programs, no premise of
execution. -/

namespace Sys2Proof

/-- The condition codes that have a mnemonic: every 5-bit value but 6 and 16 to 30 (R22). -/
def assignedCode (c : Code) : Bool :=
  c.toNat != 6 && (c.toNat < 16 || c.toNat == 31)

/-- The interrupt codes that name a key: 0 to 6 (R403). -/
def assignedInterrupt (c : BitVec 4) : Bool :=
  decide (c.toNat < 7)

/-- An assembler can write the instruction: its condition has a mnemonic and its interrupt code names a key. -/
def Instr.wellFormed : Instr → Bool
  | .addui _ _ _ => true
  | .addsi _ _ _ => true
  | .addf _ _ _ => true
  | .adduiImm _ _ _ => true
  | .addsiImm _ _ _ => true
  | .addfImm _ _ _ => true
  | .subui _ _ _ => true
  | .subsi _ _ _ => true
  | .subf _ _ _ => true
  | .subuiImm _ _ _ => true
  | .subsiImm _ _ _ => true
  | .subfImm _ _ _ => true
  | .divui _ _ _ => true
  | .divsi _ _ _ => true
  | .divf _ _ _ => true
  | .divuiImm _ _ _ => true
  | .divsiImm _ _ _ => true
  | .divfImm _ _ _ => true
  | .mltui _ _ _ => true
  | .mltsi _ _ _ => true
  | .mltf _ _ _ => true
  | .mltuiImm _ _ _ => true
  | .mltsiImm _ _ _ => true
  | .mltfImm _ _ _ => true
  | .mv _ _ => true
  | .cmpui _ _ => true
  | .cmpsi _ _ => true
  | .cmpf _ _ => true
  | .asl _ _ => true
  | .asr _ _ => true
  | .aslImm _ _ => true
  | .asrImm _ _ => true
  | .lsl _ _ => true
  | .lslImm _ _ => true
  | .lsr _ _ => true
  | .lsrImm _ _ => true
  | .and _ _ _ => true
  | .andImm _ _ _ => true
  | .or _ _ _ => true
  | .orImm _ _ _ => true
  | .xor _ _ _ => true
  | .xorImm _ _ _ => true
  | .not _ _ => true
  | .ldr _ _ => true
  | .ldrImm _ _ => true
  | .str _ _ => true
  | .strImm _ _ => true
  | .push _ => true
  | .pop _ => true
  | .jmp c _ => assignedCode c
  | .jmpImm c _ => assignedCode c
  | .jmps c _ => assignedCode c
  | .jmpsImm c _ => assignedCode c
  | .sih _ => true
  | .int _ => true
  | .intImm c => assignedInterrupt c
  | .ijmp => true
  | .glod _ _ _ => true
  | .blitmem _ _ => true
  | .blitdims _ _ => true
  | .blitdimsImm _ _ => true
  | .blit _ _ => true
  | .blitImm _ _ => true

end Sys2Proof
end

