-- ==== Sys2Proof/Tests/Slice0.lean ====
section
/-! SUPPORT. Tests of the model on values the spec works out (the rules' corner cases and examples, 95_test_vectors.md), and
for every statement with hypotheses a concrete case that meets them. -/

namespace Sys2Proof.Tests

open Sys2Proof Sys2Proof.Machine

/-! ### Small states -/

/-- The E1 reset state with some registers written. -/
def regs (l : List (Reg × Word)) : State := l.foldl (fun s p => s.setReg p.1 p.2) State.reset

/-- The E2 reset state with some registers written. -/
def regsE2 (l : List (Reg × Word)) : State := l.foldl (fun s p => s.setReg p.1 p.2) State.resetE2

/-- What a result's next state shows. -/
def seen {α : Type} (r : Result) (f : State → α) : Option α :=
  match r with
  | .next t => some (f t)
  | .fault _ => none
  | .refused _ => none

/-- Register `r` after an E1 instruction. -/
def regAfter (i : Instr) (s : State) (r : Reg) : Option Word := seen (exec i s) (fun t => t.getReg r)

/-- Register `r` after an E2 instruction. -/
def regAfterE2 (i : InstrE2) (s : State) (r : Reg) : Option Word := seen (execE2 i s) (fun t => t.getReg r)

/-- The condition code after an E1 instruction. -/
def codeAfter (i : Instr) (s : State) : Option Code := seen (exec i s) State.code

/-- The E1 state with the FIMM_MODE = convert parameter. -/
def converting (s : State) : State := { s with params := { s.params with floatImm := .convert } }

/-- The state with DIV_ZERO = any and INT_FROM_MEMORY = execute. -/
def permissive (s : State) : State := { s with params := { s.params with divZero := .any, intFromMemory := .execute } }

/-- The reset state with a predicate END. -/
def ending (e : EndOfRun) : State := { State.reset with params := { Params.atReset with endOfRun := e } }

/-- The word of an assembly line at an address. -/
def wordOf (e : Edition) (pc : Word) (line : String) : Option Word :=
  (assembleLine e [("lo".toList, 4), ("here".toList, 7)] pc line.toList).bind encodeAsm

/-- The register form tag. -/
def regTag : Option FormTag := some ⟨.reg, .normal⟩

/-- The immediate form tag. -/
def immTag : Option FormTag := some ⟨.imm, .normal⟩

/-- The word decodes to the instruction under the tag, and encodes it. -/
abbrev spells (tag : Option FormTag) (w : Word) (i : Instr) : Prop := decode tag w = .ok i ∧ encode i = w

/-- The same in E2. -/
abbrev spellsE2 (tag : Option FormTag) (w : Word) (i : InstrE2) : Prop := decodeE2 tag w = .ok i ∧ encodeE2 i = w

/-! ### Well-formedness: an ill-formed term for each check -/

theorem test_ill_formed_condition_6 : (Instr.jmp 6 1).wellFormed = false := by decide
theorem test_ill_formed_condition_16 : (Instr.jmpImm 16 1).wellFormed = false := by decide
theorem test_ill_formed_condition_30 : (Instr.jmps 30 1).wellFormed = false := by decide
theorem test_ill_formed_condition_subroutine : (Instr.jmpsImm 17 1).wellFormed = false := by decide
theorem test_ill_formed_interrupt_code : (Instr.intImm 7).wellFormed = false := by decide
theorem test_well_formed_jump_and_interrupt :
    (Instr.jmp 31 1).wellFormed = true ∧ (Instr.jmpImm 15 0).wellFormed = true ∧ (Instr.intImm 6).wellFormed = true := by
  decide

/-! ### Decoding: the words of the rules' examples, every constructor of both editions -/

theorem test_decode_add_subtract :
    spells none 0x0104609F (.addui 3 1 2) ∧ spells none 0x0104611F (.addsi 3 1 2) ∧
    spells none 0x0104619F (.addf 3 1 2) ∧ spells none 0x0284621F (.adduiImm 3 1 5) ∧
    spells none 0x0284629F (.addsiImm 3 1 5) ∧ spells none 0x0084631F (.addfImm 3 1 1) ∧
    spells none 0x0104639F (.subui 3 1 2) ∧ spells none 0x0104641F (.subsi 3 1 2) ∧
    spells none 0x0104649F (.subf 3 1 2) ∧ spells none 0x0084651F (.subuiImm 3 1 1) ∧
    spells none 0x0084659F (.subsiImm 3 1 1) ∧ spells none 0x0084661F (.subfImm 3 1 1) := by decide

theorem test_decode_divide_multiply :
    spells none 0x0104669F (.divui 3 1 2) ∧ spells none 0x0104671F (.divsi 3 1 2) ∧
    spells none 0x0104679F (.divf 3 1 2) ∧ spells none 0x0384681F (.divuiImm 3 1 7) ∧
    spells none 0x0384689F (.divsiImm 3 1 7) ∧ spells none 0x0084691F (.divfImm 3 1 1) ∧
    spells none 0x0104699F (.mltui 3 1 2) ∧ spells none 0x01046A1F (.mltsi 3 1 2) ∧
    spells none 0x01046A9F (.mltf 3 1 2) ∧ spells none 0x02846B1F (.mltuiImm 3 1 5) ∧
    spells none 0x02846B9F (.mltsiImm 3 1 5) ∧ spells none 0x00846C1F (.mltfImm 3 1 1) := by decide

theorem test_decode_move_compare_shift :
    spells none 0x00046C9F (.mv 3 1) ∧ spells none 0x00082D1F (.cmpui 1 2) ∧
    spells none 0x00082D9F (.cmpsi 1 2) ∧ spells none 0x00082E1F (.cmpf 1 2) ∧
    spells none 0x00046E9F (.asl 3 1) ∧ spells none 0x00046F1F (.asr 3 1) ∧
    spells none 0x00106F9F (.aslImm 3 4) ∧ spells none 0x0010701F (.asrImm 3 4) ∧
    spells none 0x0004709F (.lsl 3 1) ∧ spells none 0x0010711F (.lslImm 3 4) ∧
    spells none 0x0004719F (.lsr 3 1) ∧ spells none 0x0010721F (.lsrImm 3 4) := by decide

theorem test_decode_logic :
    spells none 0x0104729F (.and 3 1 2) ∧ spells none 0xF804731F (.andImm 3 1 0x1F0) ∧
    spells none 0x0104739F (.or 3 1 2) ∧ spells none 0xF804741F (.orImm 3 1 0x1F0) ∧
    spells none 0x0104749F (.xor 3 1 2) ∧ spells none 0xF804751F (.xorImm 3 1 0x1F0) ∧
    spells none 0x0004759F (.not 3 1) := by decide

theorem test_decode_memory :
    spells none 0x0002143F (.ldr 5 4) ∧ spells none 0x000988BF (.ldrImm 2 19) ∧
    spells none 0x0002053F (.str 1 4) ∧ spells none 0x000A05BF (.strImm 1 20) ∧
    spells none 0x0000063F (.push 1) ∧ spells none 0x00000EBF (.pop 3) := by decide

theorem test_decode_control :
    spells regTag 0x00003E5F (.jmp 31 31) ∧ spells immTag 0xFFFFFA42 (.jmpImm 2 0x7FFFFD) ∧
    spells immTag 0x00000A41 (.jmpImm 1 5) ∧
    spells (some ⟨.reg, .subroutine⟩) 0x00000E5F (.jmps 31 7) ∧
    spells (some ⟨.imm, .subroutine⟩) 0x0000065F (.jmpsImm 31 3) ∧
    spells none 0x000002DF (.sih 1) ∧ spells regTag 0x0000035F (.int 1) ∧
    spells immTag 0x0000095F (.intImm 4) ∧ spells none 0x000001DF .ijmp := by decide

theorem test_decode_graphics :
    spells none 0x0018807F (.glod 0 2 3) ∧ spells none 0x000100FF (.blitmem 0 4) ∧
    spells regTag 0x00018B7F (.blitdims 5 6) ∧ spells immTag 0x0002057F (.blitdimsImm 2 2) ∧
    spells regTag 0x00020FFF (.blit 7 8) ∧ spells immTag 0x001E07FF (.blitImm 3 0xF0) ∧
    spells immTag 0x001FEDFF (.blitImm 6 0xFF) := by decide

/-- The unassigned codes (R76, R78) and the words a missing tag leaves undecided (R92). -/
theorem test_decode_refuses :
    decode none 0x00000000 = .error .illegalInstruction ∧ decode none 0x0000161F = .error .illegalInstruction ∧
    decode none 0x0000033F = .error .illegalInstruction ∧ decode none 0x000003BF = .error .illegalInstruction ∧
    decode none 0x00003E5F = .error .noFormTag ∧ decode none 0x0000095F = .error .noFormTag ∧
    decode none 0x0002057F = .error .noFormTag ∧ decode none 0x001E07FF = .error .noFormTag := by decide

/-- The Condition of a non-jump and the Not Used bits are ignored (R72, R88). -/
theorem test_decode_ignores_unused_bits :
    decode none 0x01046080 = .ok (.addui 3 1 2) ∧ decode none 0xF104609F = .ok (.addui 3 1 2) ∧
    decode none 0xFFFFFFC0 = .ok .ijmp ∧ decode none 0x000001DF = .ok .ijmp := by decide

theorem test_decode_e2_arithmetic :
    spellsE2 none 0x010460A0 (.addu 3 1 2) ∧ spellsE2 none 0x01046120 (.adds 3 1 2) ∧
    spellsE2 none 0x030461A0 (.adduImm 3 1 6) ∧ spellsE2 none 0xFF046220 (.addsImm 3 1 0x1FE) ∧
    spellsE2 none 0x010462A0 (.subu 3 1 2) ∧ spellsE2 none 0x01046320 (.subs 3 1 2) ∧
    spellsE2 none 0x030463A0 (.subuImm 3 1 6) ∧ spellsE2 none 0xFF046420 (.subsImm 3 1 0x1FE) ∧
    spellsE2 none 0x010464A0 (.divu 3 1 2) ∧ spellsE2 none 0x01046520 (.divs 3 1 2) ∧
    spellsE2 none 0x030465A0 (.divuImm 3 1 6) ∧ spellsE2 none 0xFF046620 (.divsImm 3 1 0x1FE) ∧
    spellsE2 none 0x010466A0 (.mltu 3 1 2) ∧ spellsE2 none 0x010467A0 (.mlts 3 1 2) ∧
    spellsE2 none 0x03046820 (.mltuImm 3 1 6) ∧ spellsE2 none 0xFF0468A0 (.mltsImm 3 1 0x1FE) := by decide

theorem test_decode_e2_general :
    spellsE2 none 0x00046920 (.mv 3 1) ∧ spellsE2 none 0x000829A0 (.cmp 1 2) ∧
    spellsE2 none 0x00046A20 (.asl 3 1) ∧ spellsE2 none 0x00046AA0 (.asr 3 1) ∧
    spellsE2 none 0x00106BA0 (.aslImm 3 4) ∧ spellsE2 none 0x00106C20 (.asrImm 3 4) ∧
    spellsE2 none 0x00046CA0 (.lsl 3 1) ∧ spellsE2 none 0x00106D20 (.lslImm 3 4) ∧
    spellsE2 none 0x00046DA0 (.lsr 3 1) ∧ spellsE2 none 0x00106E20 (.lsrImm 3 4) ∧
    spellsE2 none 0x01046EA0 (.and 3 1 2) ∧ spellsE2 none 0x07846FA0 (.andImm 3 1 15) ∧
    spellsE2 none 0x01047020 (.or 3 1 2) ∧ spellsE2 none 0x078470A0 (.orImm 3 1 15) ∧
    spellsE2 none 0x01047120 (.xor 3 1 2) ∧ spellsE2 none 0x078471A0 (.xorImm 3 1 15) ∧
    spellsE2 none 0x00047220 (.not 3 1) := by decide

theorem test_decode_e2_memory_graphics :
    spellsE2 none 0x00021440 (.ldr 5 4) ∧ spellsE2 none 0x000988C0 (.ldrImm 2 19) ∧
    spellsE2 none 0x00020540 (.str 1 4) ∧ spellsE2 none 0x000A05C0 (.strImm 1 20) ∧
    spellsE2 none 0x00000640 (.push 1) ∧ spellsE2 none 0x00000EC0 (.pop 3) ∧
    spellsE2 none 0x00188060 (.glod 0 2 3) ∧ spellsE2 none 0x000100E0 (.blitmem 0 4) ∧
    spellsE2 regTag 0x00018B60 (.blitdims 5 6) ∧ spellsE2 immTag 0x00020560 (.blitdimsImm 2 2) ∧
    spellsE2 regTag 0x00020FE0 (.blit 7 8) ∧ spellsE2 immTag 0x001E07E0 (.blitImm 3 0xF0) := by decide

theorem test_decode_e2_control :
    spellsE2 none 0x00000000 .halt ∧ spellsE2 regTag 0x00001F80 (.jmp 0 31) ∧
    spellsE2 regTag 0x00000382 (.jmp 2 3) ∧ spellsE2 immTag 0xFFFFFD83 (.jmpImm 3 0xFFFFFD) ∧
    spellsE2 (some ⟨.reg, .subroutine⟩) 0x00000780 (.jmps 0 7) ∧
    spellsE2 (some ⟨.imm, .subroutine⟩) 0x00000380 (.jmpsImm 0 3) ∧
    spellsE2 (some ⟨.reg, .interruptReturn⟩) 0x00000080 (.jmpi 0 0) ∧
    spellsE2 (some ⟨.imm, .interruptReturn⟩) 0x00000080 (.jmpiImm 0 0) ∧
    decodeE2 none 0x00000080 = .error .noFormTag ∧ decodeE2 none 0x00000020 = .error .illegalInstruction ∧
    decodeE2 none 0x00000B20 = .error .illegalInstruction := by decide

/-! ### Assembly lines (R101 to R106, 49 R302, R327, R332, R367, 92 D28) -/

theorem test_assemble_e1 :
    wordOf .e1 0 " ADDUI R3 R1 R2" = some 0x0104609F ∧ wordOf .e1 0 "loop AND R3 R1 0sd-16 # mask" = some 0xF804731F ∧
    wordOf .e1 0 " CMP R1 R2" = some 0x00082D1F ∧ wordOf .e1 4 " GTJMP -3" = some 0xFFFFFA42 ∧
    wordOf .e1 0 " JMP LR" = some 0x00003E5F ∧ wordOf .e1 1 "x NSJMPS lo" = some 0x0000065F ∧
    wordOf .e1 0 " INT ENTER" = some 0x0000095F ∧ wordOf .e1 0 " BLIT 0b11 0xF0" = some 0x001E07FF ∧
    wordOf .e1 2 " LDR R2 here" = some (encode (.ldrImm 2 4)) := by decide

theorem test_assemble_e2 :
    wordOf .e2 0 " ADD R3 R1 R2" = some 0x010460A0 ∧ wordOf .e2 0 " ADDS R3 R1 -2" = some 0xFF046220 ∧
    wordOf .e2 0 " HALT" = some 0 ∧ wordOf .e2 0 " EJMP R3" = some 0x00000382 ∧
    wordOf .e2 0 " NSJMPI R0" = some 0x00000080 ∧ wordOf .e2 0 " CMPS R1 R2" = none := by decide

/-- GLOD immediate is an instruction without a word (R245); a literal outside its field is refused. -/
theorem test_assemble_refuses :
    assembleLine .e1 [] 2 " GLOD 0 8 4".toList = some (.glodImm 0 8 4) ∧ wordOf .e1 2 " GLOD 0 8 4" = none ∧
    wordOf .e1 0 " ADDUI R3 R1 256" = none ∧ wordOf .e1 0 " QQJMP R1" = none := by decide

/-- The model's own readings (log 27). -/
theorem test_assemble_choices :
    wordOf .e1 0 " ADDUI R003 R1 0x0f" = wordOf .e1 0 " ADDUI R3 R1 0x0F" ∧
    wordOf .e1 0 " ADDUI R3 R1 0x0f" = some (encode (.adduiImm 3 1 15)) ∧ wordOf .e1 0 " addui R3 R1 R2" = none ∧
    assembleLine .e2 [] 0 " JMPI R5".toList = assembleLine .e2 [] 0 " NSJMPI R5".toList ∧
    assembleLine .e2 [] 0 " JMPI R5".toList = some (.e2 (.jmpi 0 5)) := by decide

/-! ### Arithmetic -/

theorem test_addui : regAfter (.addui 3 1 2) (regs [(1, 7), (2, 5)]) 3 = some 12 ∧
    regAfter (.addui 3 1 2) (regs [(1, 0xFFFFFFFF), (2, 1)]) 3 = some 0 := by decide
theorem test_addsi : regAfter (.addsi 1 1 1) (regs [(1, 0x7FFFFFFF)]) 1 = some 0xFFFFFFFE := by decide
theorem test_addui_imm : regAfter (.adduiImm 3 1 0x1FF) (regs [(1, 1)]) 3 = some 0 := by decide
theorem test_addsi_imm : regAfter (.addsiImm 3 1 5) (regs []) 3 = some 5 := by decide
theorem test_subui : regAfter (.subui 3 1 2) (regs [(1, 5), (2, 7)]) 3 = some 0xFFFFFFFE := by decide
theorem test_subsi : regAfter (.subsi 3 1 2) (regs [(1, 7), (2, 5)]) 3 = some 2 := by decide
theorem test_subui_imm : regAfter (.subuiImm 3 1 1) (regs [(1, 7)]) 3 = some 6 := by decide
theorem test_subsi_imm : regAfter (.subsiImm 3 1 0x1FF) (regs [(1, 7)]) 3 = some 8 := by decide
theorem test_divui : regAfter (.divui 3 1 2) (regs [(1, 0xFFFFFFFE), (2, 2)]) 3 = some 0x7FFFFFFF := by decide
theorem test_divsi : regAfter (.divsi 3 1 2) (regs [(1, 0xFFFFFFFE), (2, 2)]) 3 = some 0xFFFFFFFF ∧
    regAfter (.divsi 3 1 2) (regs [(1, 0xFFFFFFF9), (2, 2)]) 3 = some 0xFFFFFFFD := by decide
theorem test_divui_imm : regAfter (.divuiImm 3 1 7) (regs [(1, 100)]) 3 = some 14 := by decide
theorem test_divsi_imm : regAfter (.divsiImm 3 1 0x1FE) (regs [(1, 0xFFFFFFF9)]) 3 = some 3 := by decide
theorem test_mltui : regAfter (.mltui 3 1 2) (regs [(1, 0x10000), (2, 0x10001)]) 3 = some 0x10000 := by decide
theorem test_mltsi : regAfter (.mltsi 3 1 2) (regs [(1, 0xFFFFFFF9), (2, 2)]) 3 = some 0xFFFFFFF2 := by decide
theorem test_mltui_imm : regAfter (.mltuiImm 3 1 5) (regs [(1, 7)]) 3 = some 35 := by decide
theorem test_mltsi_imm : regAfter (.mltsiImm 3 1 0x1FE) (regs [(1, 0xFFFFFFF9)]) 3 = some 14 := by decide

theorem test_pc_wraps : seen (exec (.addui 3 1 2) { regs [] with pc := 0xFFFFFFFF }) (·.pc) = some 0 := by decide

/-- A pc destination is the next pc; with no increment added (R18). -/
theorem test_arithmetic_into_pc :
    regAfter (.adduiImm 28 28 3) { regs [] with pc := 10 } 28 = some 13 := by decide

theorem test_addf : regAfter (.addf 3 1 2) (regs [(1, 0x3FC00000), (2, 0x40200000)]) 3 = some 0x40800000 := by decide
theorem test_subf : regAfter (.subf 3 1 2) (regs [(1, 0x3FC00000), (2, 0x40200000)]) 3 = some 0xBF800000 := by decide
theorem test_divf : regAfter (.divf 3 1 2) (regs [(1, 0x3FC00000), (2, 0x40200000)]) 3 = some 0x3F19999A := by decide
theorem test_mltf : regAfter (.mltf 3 1 2) (regs [(1, 0x3FC00000), (2, 0x40200000)]) 3 = some 0x40700000 := by decide
theorem test_addf_imm : regAfter (.addfImm 3 1 1) (regs [(1, 0x3FC00000)]) 3 = some 0x3FC00000 ∧
    regAfter (.addfImm 3 1 1) (converting (regs [(1, 0x3FC00000)])) 3 = some 0x40200000 := by decide
theorem test_subf_imm : regAfter (.subfImm 3 1 1) (converting (regs [(1, 0x3FC00000)])) 3 = some 0x3F000000 := by decide
theorem test_divf_imm : regAfter (.divfImm 3 1 1) (regs [(1, 0x3FC00000)]) 3 = some 0x7F800000 ∧
    regAfter (.divfImm 3 1 1) (converting (regs [(1, 0x3FC00000)])) 3 = some 0x3FC00000 := by decide +kernel
theorem test_mltf_imm : regAfter (.mltfImm 3 1 1) (regs [(1, 0x3FC00000)]) 3 = some 2 ∧
    regAfter (.mltfImm 3 1 1) (converting (regs [(1, 0x3FC00000)])) 3 = some 0x3FC00000 := by decide

/-! ### Move, compare, shift, logic -/

theorem test_mv : regAfter (.mv 3 1) (regs [(1, 0xDEADBEEF)]) 3 = some 0xDEADBEEF ∧
    regAfter (.mv 29 1) (regs [(1, 0xFFFFFFE1)]) 29 = some 0x21 := by decide
theorem test_cmpui : codeAfter (.cmpui 1 2) (regs [(1, 0xFFFFFFFF), (2, 1)]) = some 2 ∧
    codeAfter (.cmpui 1 2) (regs [(2, 0xFFFFFFFF)]) = some 3 := by decide
theorem test_cmpsi : codeAfter (.cmpsi 1 2) (regs [(1, 0x80000000), (2, 0x7FFFFFFF)]) = some 3 ∧
    codeAfter (.cmpsi 1 1) (regs [(1, 5)]) = some 1 := by decide
theorem test_cmpf : codeAfter (.cmpf 1 2) (regs [(1, 0x3FC00000), (2, 0x40200000)]) = some 3 ∧
    codeAfter (.cmpf 1 2) (regs [(1, 0xBF800000), (2, 0xFF800000)]) = some 2 := by decide
theorem test_cmpf_special : codeAfter (.cmpf 1 2) (regs [(2, 0x80000000)]) = some 1 ∧
    codeAfter (.cmpf 1 1) (regs [(1, 0x7FC00000)]) = some 11 := by decide
theorem test_asl : regAfter (.asl 3 1) (regs [(3, 0xFF000010), (1, 4)]) 3 = some 0xF0000100 := by decide
theorem test_asr : regAfter (.asr 3 1) (regs [(3, 0xFF000010), (1, 4)]) 3 = some 0xFFF00001 := by decide
theorem test_asl_imm : regAfter (.aslImm 3 4) (regs [(3, 0xFF000010)]) 3 = some 0xF0000100 := by decide
theorem test_asr_imm : regAfter (.asrImm 3 31) (regs [(3, 0x80000000)]) 3 = some 0xFFFFFFFF := by decide
theorem test_lsl : regAfter (.lsl 3 1) (regs [(3, 0xFF000010), (1, 4)]) 3 = some 0xF0000100 := by decide
theorem test_lsl_imm : regAfter (.lslImm 3 0) (regs [(3, 0xFF000010)]) 3 = some 0xFF000010 := by decide
theorem test_lsr : regAfter (.lsr 3 1) (regs [(3, 0xFF000010), (1, 4)]) 3 = some 0x0FF00001 := by decide
theorem test_lsr_imm : regAfter (.lsrImm 3 4) (regs [(3, 0xFF000010)]) 3 = some 0x0FF00001 := by decide
theorem test_and : regAfter (.and 3 1 2) (regs [(1, 0x0F0F00FF), (2, 0x00FF0F0F)]) 3 = some 0x000F000F := by decide
theorem test_and_imm : regAfter (.andImm 3 1 0x1F0) (regs [(1, 0x12345678)]) 3 = some 0x12345670 := by decide
theorem test_or : regAfter (.or 3 1 2) (regs [(1, 0x0F0F00FF), (2, 0x00FF0F0F)]) 3 = some 0x0FFF0FFF := by decide
theorem test_or_imm : regAfter (.orImm 3 1 0x1F0) (regs [(1, 0x12345678)]) 3 = some 0xFFFFFFF8 := by decide
theorem test_xor : regAfter (.xor 3 1 2) (regs [(1, 0x0F0F00FF), (2, 0x00FF0F0F)]) 3 = some 0x0FF00FF0 := by decide
theorem test_xor_imm : regAfter (.xorImm 3 1 0x1F0) (regs [(1, 0x12345678)]) 3 = some 0xEDCBA988 := by decide
theorem test_not : regAfter (.not 3 1) (regs [(1, 0x0F0F00FF)]) 3 = some 0xF0F0FF00 := by decide

/-! ### Memory -/

theorem test_ldr : regAfter (.ldr 5 4) ((regs [(4, 24)]).memWrite 24 42) 5 = some 42 := by decide
theorem test_ldr_imm : regAfter (.ldrImm 2 19) { State.reset.memWrite 24 7 with pc := 4 } 2 = some 7 ∧
    regAfter (.ldrImm 28 0x1FFFE) (State.reset.memWrite 0xFFFFFFFF 9) 28 = some 9 := by decide
theorem test_str : seen (exec (.str 1 4) (regs [(1, 42), (4, 24)])) (fun t => t.memRead 24) = some 42 := by decide
theorem test_str_imm :
    seen (exec (.strImm 1 20) { regs [(1, 42)] with pc := 3 }) (fun t => (t.memRead 24, t.pc)) = some (42, 4) := by decide
theorem test_push : seen (exec (.push 1) (regs [(1, 42), (30, 200)])) (fun t => (t.sp, t.memRead 199)) = some (199, 42) ∧
    seen (exec (.push 30) (regs [])) (fun t => (t.sp, t.memRead 0xFFFFFFFF)) = some (0xFFFFFFFF, 0xFFFFFFFF) := by decide
theorem test_pop : seen (exec (.pop 3) ((regs [(30, 199)]).memWrite 199 42)) (fun t => (t.getReg 3, t.sp)) =
    some (42, 200) := by decide

/-! ### Control -/

theorem test_jmp : regAfter (.jmp 31 31) (regs [(31, 2)]) 28 = some 2 ∧
    regAfter (.jmp 1 31) { regs [(31, 2)] with sts := 2 } 28 = some 1 := by decide
theorem test_jmp_imm : regAfter (.jmpImm 2 0x7FFFFD) { regs [] with sts := 2, pc := 4 } 28 = some 1 ∧
    regAfter (.jmpImm 2 0x7FFFFD) { regs [] with sts := 3, pc := 4 } 28 = some 5 := by decide
theorem test_jmps : seen (exec (.jmps 31 7) { regs [(7, 100)] with pc := 10 }) (fun t => (t.lr, t.pc)) = some (11, 100) ∧
    seen (exec (.jmps 31 31) { regs [(31, 100)] with pc := 10 }) (fun t => (t.lr, t.pc)) = some (11, 11) := by decide
theorem test_jmps_imm : seen (exec (.jmpsImm 31 3) { regs [] with pc := 1 }) (fun t => (t.lr, t.pc)) = some (2, 4) ∧
    seen (exec (.jmpsImm 1 3) { regs [] with pc := 1, sts := 0 }) (fun t => (t.lr, t.pc)) = some (0, 2) := by decide
theorem test_sih : seen (exec (.sih 1) (regs [(1, 6)])) (fun t => (t.ihdlr, t.pc)) = some (6, 1) := by decide
theorem test_int :
    seen (exec (.int 1) { permissive (regs [(1, 0x14), (27, 6)]) with pc := 3 }) (fun t => (t.intlr, t.pc, t.memRead 0xFFFFFFFF)) =
      some (3, 6, 4) := by decide
theorem test_int_imm :
    seen (exec (.intImm 4) (permissive (regs [(27, 6)]))) (fun t => (t.sts, t.memRead 0xFFFFFFFF)) = some (0b111111, 4) ∧
    seen (exec (.intImm 4) (permissive (regs []))) (fun t => (t.sts, t.pc)) = some (0b011111, 1) := by decide
/-- The defaults of DIV_ZERO and INT_FROM_MEMORY (R113, R219). -/
theorem test_default_faults : exec (.intImm 4) (regs [(27, 6)]) = .fault (.internalInstruction 0 0) ∧
    exec (.divui 3 1 2) (regs [(1, 7)]) = .fault (.divideByZero 0) := ⟨rfl, rfl⟩
theorem test_ijmp : seen (exec .ijmp { regs [(26, 3)] with sts := 0b100001 }) (fun t => (t.sts, t.pc)) =
    some (0b000001, 3) ∧ regAfter .ijmp (regs [(26, 3)]) 28 = some 1 := by decide

/-! ### Graphics -/

/-- The sprite of the worked example (R244, R251): the bytes 11, 22, 33, 44 at sprite address 0. -/
def sprite : State := { State.reset with spr := [(0, 0x11), (1, 0x22), (2, 0x33), (3, 0x44)] }

/-- The Blitter set up for it: a rectangle of 2 by 2 at pixel 200. -/
def blitter : State :=
  { sprite with bsrc := 0, bdst := 200, bw := 2, bh := 2, bsrcSet := true, bdstSet := true, bwSet := true, bhSet := true }

theorem test_glod :
    seen (exec (.glod 0 2 3) ((regs [(2, 10), (3, 4)]).memWrite 10 0x44332211)) State.spr = some sprite.spr := by decide
theorem test_glod_imm :
    seen (execGlodImm 0 8 4 { State.reset.memWrite 10 0x44332211 with pc := 2 }) State.spr = some sprite.spr := by decide
theorem test_blitmem :
    seen (exec (.blitmem 0 4) (regs [(0, 0xFFFFF001), (4, 0x100C8)])) (fun t => (t.bsrc, t.bdst, t.bsrcSet, t.bwSet)) =
      some (1, 0xC8, true, false) := by decide
theorem test_blitdims :
    seen (exec (.blitdims 5 6) (regs [(5, 128), (6, 16)])) (fun t => (t.bw, t.bh, t.bhSet)) = some (0, 16, true) := by decide
theorem test_blitdims_imm : seen (exec (.blitdimsImm 2 3) (regs [])) (fun t => (t.bw, t.bh)) = some (2, 3) := by decide
theorem test_blit :
    seen (exec (.blit 7 8) ((blitter.setReg 7 3).setReg 8 0xFF)) State.fb =
      some [(200, 0x11), (201, 0x22), (456, 0x33), (457, 0x44)] := by decide
theorem test_blit_imm :
    seen (exec (.blitImm 3 0xF0) blitter) State.fb = some [(200, 0x10), (201, 0x20), (456, 0x30), (457, 0x40)] := by decide
/-- A BLIT right after reset, one after BLITMEM alone (V160, V161; R249, R420), one with only BH unset. -/
theorem test_blit_unset : step (State.reset.withFetchWord 32 0x001FE7FF) = .fault (.blitterUnset 0) ∧
    exec (.blitImm 3 0xFF) { sprite with bdst := 200, bsrcSet := true, bdstSet := true } = .fault (.blitterUnset 0) ∧
    exec (.blit 7 8) { blitter with bhSet := false } = .fault (.blitterUnset 0) := ⟨rfl, rfl, rfl⟩

/-! ### Edition E2 -/

theorem test_e2_arithmetic :
    regAfterE2 (.addu 3 1 2) (regsE2 [(1, 20), (2, 6)]) 3 = some 26 ∧
    regAfterE2 (.addsImm 3 1 0x1FE) (regsE2 [(1, 0xFFFFFFF9)]) 3 = some 0xFFFFFFF7 ∧
    regAfterE2 (.divs 3 1 2) (regsE2 [(1, 0xFFFFFFF9), (2, 2)]) 3 = some 0xFFFFFFFD ∧
    regAfterE2 (.mltu 3 1 2) (regsE2 [(1, 20), (2, 6)]) 3 = some 120 := by decide
theorem test_e2_cmp : seen (execE2 (.cmp 1 2) (regsE2 [(1, 5), (2, 7)])) State.code = some 4 := by decide
theorem test_e2_jmp : regAfterE2 (.jmpImm 3 0xFFFFFD) { regsE2 [] with sts := 3, pc := 4 } 28 = some 1 ∧
    regAfterE2 (.jmpImm 3 0xFFFFFD) { regsE2 [] with sts := 4, pc := 4 } 28 = some 5 := by decide
theorem test_e2_jmps : seen (execE2 (.jmpsImm 0 3) { regsE2 [] with pc := 1 }) (fun t => (t.lr, t.pc)) = some (2, 4) := by
  decide
theorem test_e2_jmpi :
    seen (execE2 (.jmpi 0 0) { regsE2 [(26, 3)] with sts := 0b100010 }) (fun t => (t.sts, t.pc)) = some (2, 3) ∧
    seen (execE2 (.jmpi 2 0) { regsE2 [(26, 3)] with sts := 0b100011 }) (fun t => (t.sts, t.pc)) = some (0b100011, 1) := by
  decide
theorem test_e2_halt : seen (step State.resetE2) (fun t => (t.halted, t.pc)) = some (true, 0) := by decide

/-! ### The step -/

/-- A machine with `MV R3 R1` under its pc. -/
def placed : State := (regs [(1, 5)]).withFetchWord 32 0x00046C9F

/-- A machine with `INT 4` under its pc and a handler at 6. -/
def placedInt : State := (permissive (regs [(27, 6)])).withFetchWord 32 0x0000095F

/-- A machine whose host presses ENTER before the first instruction, with a handler at 6. -/
def pressed : State := { regs [(27, 6)] with schedule := [⟨0, .enter⟩] }

theorem test_step_runs_placed : seen (step placed) (fun t => (t.getReg 3, t.pc, t.steps)) = some (5, 1, 1) := by decide
theorem test_step_runs_immediate_form :
    seen (step (State.reset.withFetchWord 32 0x001E0571)) (fun t => (t.bw, t.bh)) = some (2, 30) := by decide
theorem test_step_illegal : step State.reset = .fault (.illegalInstruction 0 0) := rfl
theorem test_step_no_form_tag :
    step (State.reset.memWrite 0 0x0000095F) = .fault (.noFormTag 0 0x0000095F) := rfl
theorem test_step_host_move :
    seen (step pressed) (fun t => (t.intlr, t.pc, t.intFlag, t.memRead 0xFFFFFFFF, t.schedule.length)) =
      some (0, 6, true, 4, 0) := by decide
theorem test_step_host_move_lost :
    step { State.reset with schedule := [⟨0, .space⟩] } = .next { State.reset with endPassed := true } := rfl
theorem test_step_ended : step (ending (.atPc 0)) = .next (ending (.atPc 0)) := rfl
/-- A taken `NSJMP 0` under END = jump to self (R223). -/
theorem test_self_jump :
    ({ State.reset.withFetchWord 32 0x0000005F with
        params := { Params.atReset with formsel := [⟨none, none, ⟨.imm, .normal⟩⟩], endOfRun := .selfJump } } : State).ended =
      true := by decide
/-- END as a predicate on the state: mailbox word 4 and the pc not 0, or SP at least 200 (R446). -/
theorem test_end_predicate :
    let e : EndOfRun := .either (.both (.equals (.memory 0xFFFFFFFF) 4) (.complement (.atPc 0))) (.atLeast (.register 30) 200)
    (ending e).ended = false ∧ ((ending e).memWrite 0xFFFFFFFF 4).ended = false ∧
    ({ (ending e).memWrite 0xFFFFFFFF 4 with pc := 6 } : State).ended = true ∧ ({ ending e with sp := 200 } : State).ended = true := by
  decide
/-- END = (pc = 6) does not end a run at the boundary whose host move enters the handler at 6 (R446): the step after the
entry runs, here into the illegal word 0. -/
theorem test_end_before_host_move :
    let s : State := { ending (.atPc 6) with ihdlr := 6, schedule := [⟨0, .enter⟩] }
    seen (step s) (fun t => (t.pc, t.ended)) = some (6, false) ∧
    Host.Core.run Sys2Proof.core 2 s = .fault (.illegalInstruction 6 0) := ⟨by decide, rfl⟩
theorem test_table_word : decodeTableWord 32 0x0104609F = some (.addui 3 1 2) ∧
    decodeTableWord 32 0x001E07FF = some (.blitImm 3 0xF0) ∧ decodeTableWord 32 0 = none := by decide
/-- The image over MEM_INIT, and GFX_INIT (R441, R442): the image's bytes win, an entry outside its memory counts for
nothing. -/
theorem test_launch :
    seen (.next ((launch [0x9F, 0x6C, 0x04, 0x00] Params.atReset ⟨[(20, 7), (0, 1), (20, 9)], [(65535, 3), (65536, 4)], [(0, 5)]⟩
      []).getD State.resetE2)) (fun t => (t.memRead 0, t.memRead 5, t.fb.length, t.sprRead 0, t.params.edition)) =
      some (0x00046C9F, 7, 1, 5, .e1) := by decide

/-! ### Cases that meet the hypotheses of the statements -/

theorem witness_ConditionIsIgnoredOutsideJumps :
    let v : Word := 0x01046080
    let w : Word := 0x0104609F
    v ≠ w ∧ v.extractLsb' 5 27 = w.extractLsb' 5 27 ∧ ¬ (w.extractLsb' 5 2 = 2 ∧ w.extractLsb' 7 2 = 0) := by decide

/-- R76, R78, R92: a word on either side of each boundary. -/
theorem witness_RefusedWords :
    decode none 0x0000159F = .ok (.not 0 0) ∧ decode none 0x0000161F = .error .illegalInstruction ∧
    decode none 0x0000001F = .error .illegalInstruction ∧ decode none 0x000002BF = .ok (.pop 0) ∧
    decode none 0x0000033F = .error .illegalInstruction ∧ decode none 0x0000005F = .error .noFormTag ∧
    decode (some ⟨.reg, .interruptReturn⟩) 0x0000005F = .error .noFormTag ∧
    decodeE2 none 0x00000720 = .error .illegalInstruction ∧ decodeE2 none 0x00001220 = .ok (.not 0 0) ∧
    decodeE2 none 0x000012A0 = .error .illegalInstruction ∧ decodeE2 none 0x00000340 = .error .illegalInstruction ∧
    decodeE2 none 0x00000080 = .error .noFormTag ∧ decodeE2 none 0x00000000 = .ok .halt ∧
    decodeE2 none 0x00000160 = .error .noFormTag ∧ decodeE2 none 0x000001E0 = .error .noFormTag ∧
    decodeE2 none 0x000000E0 = .ok (.blitmem 0 0) := by
  decide

theorem witness_RegisterAliases :
    named registerAliases "INTLR".toList = some 26 ∧ named registerAliases "LR".toList = some 31 ∧
    registerNamed "R31".toList = some 31 ∧ registerNamed "R32".toList = none := by decide

theorem witness_StepRunsDecodedInstruction_e1 : placed.running ∧ placed.params.edition = .e1 ∧
    decode (formSel placed.params.formsel placed.pc (placed.memRead placed.pc)) (placed.memRead placed.pc) =
      .ok (.mv 3 1) := by unfold State.running; decide

theorem witness_StepRunsDecodedInstruction_e2 : State.resetE2.running ∧ State.resetE2.params.edition = .e2 ∧
    decodeE2 (formSel State.resetE2.params.formsel State.resetE2.pc (State.resetE2.memRead State.resetE2.pc))
      (State.resetE2.memRead State.resetE2.pc) = .ok .halt := by unfold State.running; decide

theorem witness_StepFaultsOnRefusedWord_e1 :
    State.reset.running ∧ State.reset.memRead State.reset.pc = 0 ∧ formSel State.reset.params.formsel 0 0 = none ∧
    State.reset.params.edition = .e1 ∧ decode none 0 = .error .illegalInstruction ∧
    (State.reset.memWrite 0 0x00000A41).running ∧ (State.reset.memWrite 0 0x00000A41).memRead 0 = 0x00000A41 ∧
    decode none 0x00000A41 = .error .noFormTag := by unfold State.running; decide

theorem witness_StepFaultsOnRefusedWord_e2 :
    let illegal := State.resetE2.memWrite 0 0x00000020
    let untagged := State.resetE2.memWrite 0 0x00000080
    illegal.running ∧ illegal.memRead illegal.pc = 0x00000020 ∧ illegal.params.edition = .e2 ∧
    formSel illegal.params.formsel 0 0x00000020 = none ∧ decodeE2 none 0x00000020 = .error .illegalInstruction ∧
    untagged.running ∧ untagged.memRead untagged.pc = 0x00000080 ∧ decodeE2 none 0x00000080 = .error .noFormTag := by
  unfold State.running; decide

/-- The first rule that covers the word at its address gives the tag; a rule for one address, one for one word, one for
every word (R92). -/
theorem witness_StepFaultsOnRefusedWord_formSel :
    let table : List FormRule := [⟨some 5, none, ⟨.imm, .subroutine⟩⟩, ⟨none, some 9, ⟨.imm, .normal⟩⟩, ⟨some 6, some 8, ⟨.reg, .normal⟩⟩]
    formSel table 5 9 = some ⟨.imm, .subroutine⟩ ∧ formSel table 6 9 = some ⟨.imm, .normal⟩ ∧
    formSel table 6 8 = some ⟨.reg, .normal⟩ ∧ formSel table 6 7 = none ∧ formSel table 7 8 = none ∧
    formSel [⟨none, none, ⟨.reg, .normal⟩⟩] 1 2 = some ⟨.reg, .normal⟩ := by decide

theorem witness_PlacedWordRunsNext : decodeTableWord 32 0x0000095F = some (.int 4) ∧
    ∃ t, step placedInt = .next t := ⟨by decide, _, rfl⟩

theorem witness_EndedMachineStays :
    (ending (.atPc 0)).ended = true ∧ (ending (.atPc 1)).ended = false ∧
    (ending (.afterSteps 0)).ended = true ∧ (ending (.afterSteps 1)).ended = false ∧
    ({ ending (.atPc 0) with endPassed := true } : State).ended = false ∧ (ending (.atPc 0)).params.edition = .e1 ∧
    ({ State.resetE2 with halted := true } : State).ended = true ∧ State.resetE2.params.edition = .e2 := by decide

/-- A part of each kind, and the self jump not taken or not to itself. -/
theorem witness_EndedMachineStays_parts :
    let s := { blitter.setReg 3 77 with mem := [(9, 1)], fb := [(7, 5)], steps := 6 }
    s.part (.register 3) = 77 ∧ s.part (.register 29) = 31 ∧ s.part (.memory 2) = 256 ∧ s.part (.screen 7) = 5 ∧
    s.part (.sprite 3) = 0x44 ∧ s.part .blitterDest = 200 ∧ s.part .blitterWidthSet = 1 ∧ s.part .stepsDone = 6 := by decide

theorem witness_EndedMachineStays_selfJump :
    let at0 (tag : FormTag) (w : Word) (sts : BitVec 6) : State :=
      { State.reset.memWrite 0 w with sts := sts, params := { Params.atReset with formsel := [⟨none, none, tag⟩] } }
    (at0 ⟨.reg, .normal⟩ 0x00000E5F 31).satisfies .selfJump = true ∧
    (at0 ⟨.imm, .normal⟩ 0x00000041 1).satisfies .selfJump = true ∧
    (at0 ⟨.imm, .normal⟩ 0x00000041 2).satisfies .selfJump = false ∧
    (at0 ⟨.imm, .normal⟩ 0x00000A41 1).satisfies .selfJump = false ∧
    (at0 ⟨.imm, .subroutine⟩ 0x00000041 1).satisfies .selfJump = false := by decide

theorem witness_HostMoveStep : pressed.ended = false ∧ pressed.schedule = ⟨0, .enter⟩ :: [] ∧ 0 ≤ pressed.steps ∧
    pressed.intFlag = false ∧ pressed.ihdlr ≠ 0xFFFFFFFF ∧ keyCode .enter = 4 := by decide

theorem witness_HostMoveStep_lost :
    let unset : State := { State.reset with schedule := [⟨0, .enter⟩] }
    let busy : State := { pressed with sts := 0b111111 }
    unset.ended = false ∧ unset.schedule = [⟨0, .enter⟩] ∧ unset.ihdlr = 0xFFFFFFFF ∧ busy.ended = false ∧
    busy.schedule = [⟨0, .enter⟩] ∧ busy.intFlag = true := by decide

theorem witness_StepKeepsInvariant : placed.Inv ∧ ∃ t, step placed = .next t :=
  ⟨⟨by decide, by decide, by decide, by decide, by decide, by decide, by decide, by decide, by decide, by decide, by decide⟩,
    _, rfl⟩

theorem witness_StepKeepsInvariant_blitter : blitter.Inv ∧ ∃ t, exec (.blitImm 3 0xF0) blitter = .next t :=
  ⟨⟨by decide, by decide, by decide, by decide, by decide, by decide, by decide, by decide, by decide, by decide, by decide⟩,
    _, rfl⟩

/-- The last byte of an image, the first after it, and the last of each memory. -/
theorem witness_LaunchPlacesImage :
    (launch [0x9F, 0x6C, 0x04, 0x01] Params.atReset ⟨[(3, 7), (4, 8), (2 ^ 34 - 1, 9)], [(2 ^ 16 - 1, 1)], [(2 ^ 12 - 1, 2)]⟩
      [⟨3, .space⟩]).map (fun s => (Memory.read s.mem 3, Memory.read s.mem 4, Memory.read s.mem (2 ^ 34 - 1),
        Memory.read s.fb (2 ^ 16 - 1), Memory.read s.spr (2 ^ 12 - 1))) = some (1, 8, 9, 1, 2) ∧
    (launch [] Params.atReset ⟨[], [], []⟩ []).isSome = true ∧
    launch [0x9F, 0x6C, 0x04] Params.atReset ⟨[], [], []⟩ [] = none := by decide

theorem witness_CanonicalMemoriesAgree : Memory.wf [(3, 5), (4, 1)] = true ∧ Memory.wf [(3, 0)] = false ∧
    Memory.wf [(4, 1), (3, 5)] = false := by decide

/-- Divisors at the ends of the range, and the one quotient that does not fit. -/
theorem witness_IntegerDivision :
    (regs [(1, 0x80000000), (2, 0xFFFFFFFF)]).getReg 2 ≠ 0 ∧ (0x1FF : BitVec 9) ≠ 0 ∧ (1 : BitVec 9) ≠ 0 ∧
    (regs [(1, 0x80000000), (2, 0xFFFFFFFF)]).getReg 1 = 0x80000000 ∧
    ¬ ((regs [(1, 0x80000000), (2, 1)]).getReg 1 = 0x80000000 ∧ (regs [(1, 0x80000000), (2, 1)]).getReg 2 = 0xFFFFFFFF) ∧
    regAfter (.divsi 3 1 2) (regs [(1, 0x80000000), (2, 1)]) 3 = some 0x80000000 := by decide

/-- Both settings; and the immediate form where no register reads 0. -/
theorem witness_DivisionByZero :
    (regs [(1, 7)]).getReg 2 = 0 ∧ (regs [(1, 7)]).params.divZero = .fault ∧
    (permissive (regs [(1, 7)])).getReg 2 = 0 ∧ (permissive (regs [(1, 7)])).params.divZero = .any ∧
    (∃ t, exec (.divui 3 1 2) (permissive (regs [(1, 7)])) = .next t) ∧
    exec (.divsiImm 3 1 0) { State.reset with gpr := Vector.replicate 26 1 } = .fault (.divideByZero 0) :=
  ⟨by decide, by decide, by decide, by decide, ⟨_, rfl⟩, rfl⟩

theorem witness_FloatArithmetic :
    State.reset.params.floatUnit = .ieee ∧ fAdd 0x3F800000 0x3F800000 = some 0x40000000 ∧
    fAdd 0x7F800000 0xFF800000 = none := by decide

/-- The midpoint past the largest finite number, and one below it; a tie that goes to the even neighbour. -/
theorem witness_FloatRounding :
    fRound ((2 ^ 25 - 1) * 2 ^ 252) 1 = fInfBits ∧ fRound ((2 ^ 25 - 1) * 2 ^ 252 - 1) 1 = fInfBits - 1 ∧
    fRound (2 ^ 24 + 1) 1 = 2 * 2 ^ 23 ∧ fRound (2 ^ 24 + 3) 1 = 2 * 2 ^ 23 + 2 ∧ fRound 1 2 = 0 ∧ fRound 3 2 = 2 ∧
    fExp 0x7F7FFFFF = 254 := by decide

/-- The largest sums on both sides of the overflow threshold, in units of 2^-149: the midpoint past the largest finite number
is reached by 0x7F7FFFFF + 0x73000000 and missed by 0x7F7FFFFF + 0x72FFFFFF; 1 + 2^-24 is a tie that goes to the even 1; the
products 2^-149 * -2^-149 underflow to -0. -/
theorem witness_FloatResultsAreNearest :
    fExp 0x7F7FFFFF < 255 ∧ fExp 0x73000000 < 255 ∧
    fValue 0x7F7FFFFF + fValue 0x73000000 = (2 ^ 25 - 1) * 2 ^ 252 ∧ fAdd 0x7F7FFFFF 0x73000000 = some 0x7F800000 ∧
    (fValue 0x7F7FFFFF + fValue 0x72FFFFFF).natAbs < (2 ^ 25 - 1) * 2 ^ 252 ∧
    fAdd 0x7F7FFFFF 0x72FFFFFF = some 0x7F7FFFFF ∧ fSub 0xFF7FFFFF 0x73000000 = some 0xFF800000 ∧
    fAdd 0x3F800000 0x33800000 = some 0x3F800000 ∧ fMul 0x00000001 0x80000001 = some 0x80000000 ∧
    fIsZero 0x40400000 = false ∧ fDiv 0x3F800000 0x40400000 = some 0x3EAAAAAB := by decide

theorem witness_FloatSpecialOperands :
    fIsNaN 0x7FC00000 = true ∧ fIsNaN 0x7F800001 = true ∧ fIsInf 0x7F800000 = true ∧ fIsInf 0xFF800000 = true ∧
    fIsZero 0x80000000 = true ∧ fIsZero 0x00000000 = true ∧ fExp 0x00000001 < 255 ∧ fIsZero 0x00000001 = false ∧
    fExp 0x7F7FFFFF < 255 ∧ fDiv 0x3F800000 0x80000000 = some 0xFF800000 ∧ fOfInt (-256) = 0xC3800000 := by decide

/-- Infinities with finite operands and with each other, and the signs of zero sums (R114). -/
theorem test_float_special :
    fAdd 0x3F800000 0xFF800000 = some 0xFF800000 ∧ fSub 0x3F800000 0xFF800000 = some 0x7F800000 ∧
    fMul 0xFF800000 0xBF800000 = some 0x7F800000 ∧ fDiv 0xBF800000 0x7F800000 = some 0x80000000 ∧
    fDiv 0xFF800000 0x00000000 = some 0xFF800000 ∧ fAdd 0xFF800000 0xFF800000 = some 0xFF800000 ∧
    fSub 0x7F800000 0x7F800000 = none ∧ fAdd 0x80000000 0x80000000 = some 0x80000000 ∧
    fSub 0x80000000 0x00000000 = some 0x80000000 ∧ fAdd 0x80000000 0x00000000 = some 0x00000000 := by decide

/-- Words that meet the decoding hypotheses of the statements that read one. -/
theorem witness_word_hypotheses :
    (0x00046C9F : Word).extractLsb' 5 2 = 0 ∧ (0x00046C9F : Word).extractLsb' 7 6 = 25 ∧
    (0x0004759F : Word).extractLsb' 7 6 = 43 ∧ (0x0104729F : Word).extractLsb' 7 6 = 37 ∧
    (0xF804731F : Word).extractLsb' 7 6 = 38 ∧ (0x0104739F : Word).extractLsb' 7 6 = 39 ∧
    (0xF804741F : Word).extractLsb' 7 6 = 40 ∧ (0x0104749F : Word).extractLsb' 7 6 = 41 ∧
    (0xF804751F : Word).extractLsb' 7 6 = 42 ∧ (0x00082D1F : Word).extractLsb' 7 6 = 26 ∧
    (0x00082D9F : Word).extractLsb' 7 6 = 27 ∧ (0x0002143F : Word).extractLsb' 5 2 = 1 ∧
    (0x0002143F : Word).extractLsb' 7 3 = 0 ∧ (0x000988BF : Word).extractLsb' 7 3 = 1 ∧
    (0x0002053F : Word).extractLsb' 7 3 = 2 ∧ (0x000A05BF : Word).extractLsb' 7 3 = 3 := by decide

theorem witness_word_hypotheses_control_graphics :
    (0x00003E5F : Word).extractLsb' 5 2 = 2 ∧ (0x00003E5F : Word).extractLsb' 7 2 = 0 ∧
    (0x000002DF : Word).extractLsb' 7 2 = 1 ∧ (0x000001DF : Word).extractLsb' 7 2 = 3 ∧
    (0x000100FF : Word).extractLsb' 5 2 = 3 ∧ (0x000100FF : Word).extractLsb' 7 2 = 1 ∧
    (0x00018B7F : Word).extractLsb' 7 2 = 2 ∧ (0x00001F80 : Word).extractLsb' 5 2 = 0 ∧
    (0x00001F80 : Word).extractLsb' 7 1 = 1 := by decide

/-- Shift amounts at the ends of the range: 0, 31, 32, and a negative immediate. -/
theorem witness_Shifts :
    ((0 : BitVec 14).signExtend 32).toNat = 0 ∧ ((31 : BitVec 14).signExtend 32).toNat = 31 ∧
    ((32 : BitVec 14).signExtend 32).toNat = 32 ∧ ¬ ((0x3FFF : BitVec 14).signExtend 32).toNat < 32 ∧
    (regs [(1, 31)]).getReg 1 = 31 := by decide

/-- The largest shift of 1 and of -1 whose product fits, and one too far. -/
theorem witness_ArithmeticLeftShift :
    -(2 ^ 31 : Int) ≤ (1 : Word).toInt * 2 ^ 30 ∧ (1 : Word).toInt * 2 ^ 30 < 2 ^ 31 ∧
    -(2 ^ 31 : Int) ≤ (0xFFFFFFFF : Word).toInt * 2 ^ 31 ∧ ¬ (1 : Word).toInt * 2 ^ 31 < 2 ^ 31 ∧
    regAfter (.aslImm 3 31) (regs [(3, 0xFFFFFFFF)]) 3 = some 0x80000000 := by decide

theorem witness_FloatCompare : State.reset.params.floatUnit = .ieee ∧ fExp 0x7F7FFFFF < 255 := by decide

/-- NE against a stored GT, which the other order would not match, and a COND_MATCH of one pair (R211). -/
theorem witness_ConditionMatching :
    let greater : State := { regs [] with sts := 2 }
    let notEqual : State := { regs [] with sts := 0 }
    let pairs (s : State) : State := { s with params := { s.params with condMatch := some [(0, 2)] } }
    greater.params.condMatch = none ∧ greater.condHolds condMatchE1 0 = true ∧ notEqual.condHolds condMatchE1 2 = false ∧
    (pairs greater).condHolds condMatchE1 0 = true ∧ (pairs notEqual).condHolds condMatchE1 2 = false ∧
    (pairs greater).condHolds condMatchE1 2 = false ∧
    ({ regsE2 [] with sts := 3 } : State).condHolds condMatchE2 5 = true ∧
    ({ regsE2 [] with sts := 5 } : State).condHolds condMatchE2 3 = false := by decide

theorem witness_PopWord : (3 : Reg) ≠ Reg.sp ∧ (3 : Reg) ≠ Reg.pc ∧
    seen (exec (.pop 30) ((regs [(30, 199)]).memWrite 199 42)) State.sp = some 43 ∧
    seen (exec (.pop 28) ((regs [(30, 199)]).memWrite 199 42)) State.pc = some 42 := by decide

theorem witness_PushThenPop : (1 : Reg) ≠ Reg.sp ∧ (28 : Reg) ≠ Reg.sp ∧
    ∃ t u, exec (.push 1) (regs [(1, 42), (30, 200)]) = .next t ∧ exec (.pop 28) t = .next u :=
  ⟨by decide, by decide, _, _, rfl, rfl⟩

theorem witness_SubroutineJump :
    (regs []).condHolds condMatchE1 1 = true ∧ ({ regs [] with sts := 2 } : State).condHolds condMatchE1 1 = false ∧
    (7 : Reg) ≠ Reg.lr := by decide

/-- Flag and handler in each of the cases that an INT tells apart. -/
theorem witness_PerformInterrupt :
    (permissive (regs [(27, 6)])).params.intFromMemory = .execute ∧ (regs [(27, 6)]).intFlag = false ∧
    (regs [(27, 6)]).ihdlr ≠ 0xFFFFFFFF ∧ (regs []).ihdlr = 0xFFFFFFFF ∧
    ({ regs [(27, 6)] with sts := 0b111111 } : State).intFlag = true := by decide

theorem witness_ReturnFromInterrupt :
    (regs []).intFlag = false ∧ ({ regs [(26, 3)] with sts := 0b100000 } : State).intFlag = true := by decide

theorem witness_InterruptRoundTrip : pressed.interruptAccepted = true ∧
    ∃ u, exec .ijmp (pressed.enter 4) = .next u := ⟨by decide, _, rfl⟩

theorem witness_InterruptLinkRegister :
    ({ regs [(26, 3)] with sts := 0b100000 } : State).intFlag = true ∧
    (∃ t, exec .ijmp { regs [(26, 3)] with sts := 0b100000 } = .next t) ∧
    (∃ t, exec (.mv 3 1) (regs []) = .next t) ∧ destination (.mv 3 1) ≠ some Reg.intlr ∧
    family (.mv 3 1) ≠ .interrupt := ⟨by decide, ⟨_, rfl⟩, ⟨_, rfl⟩, by decide, by decide⟩

/-- A copy of no byte and one of 4095 bytes; the first and the last byte of a copy of four. -/
theorem witness_LoadSprite :
    (regs []).getReg 3 = 0 ∧ ((regs [(3, 0x1FFF)]).getReg 3).toNat % 4096 = 4095 ∧ 0 < 4 ∧ 3 < 4 ∧
    Memory.read sprite.spr 3 = 0x44 := by decide

theorem witness_TransferRectangle :
    blitter.bsrcSet = true ∧ blitter.bdstSet = true ∧ blitter.bwSet = true ∧ blitter.bhSet = true ∧
    1 < blitter.bh.toNat ∧ 1 < blitter.bw.toNat := by decide

/-- One instruction of each side of the rules about the whole machine. -/
theorem witness_MemoriesAndTheirWriters :
    (∃ t, exec (.str 1 4) (regs []) = .next t) ∧ family (.str 1 4) ≠ .graphics ∧
    (∃ t, exec (.glod 0 2 3) (regs []) = .next t) ∧ family (.glod 0 2 3) = .graphics ∧
    family (.glod 0 2 3) ∉ [.store, .push, .interrupt] := ⟨⟨_, rfl⟩, by decide, ⟨_, rfl⟩, by decide, by decide⟩

theorem witness_StatusRegisterWriters :
    (∃ t, exec (.mv 3 1) (regs []) = .next t) ∧ destination (.mv 3 1) ≠ some Reg.sts ∧
    family (.mv 3 1) ∉ [.arithmetic, .compare, .interrupt, .interruptReturn] ∧
    (∃ t, exec (.cmpui 3 1) (regs []) = .next t) ∧ destination (.cmpui 3 1) ≠ some Reg.sts ∧
    family (.cmpui 3 1) ∉ [.interrupt, .interruptReturn] := ⟨⟨_, rfl⟩, by decide, by decide, ⟨_, rfl⟩, by decide, by decide⟩

theorem witness_ImplicitRegisterWriters :
    (∃ t, exec (.ldr 3 1) (regs []) = .next t) ∧ destination (.ldr 3 1) ≠ some Reg.sp ∧
    family (.ldr 3 1) ∉ [.push, .pop] ∧ destination (.ldr 3 1) ≠ some Reg.lr ∧ family (.ldr 3 1) ≠ .subroutineJump ∧
    destination (.ldr 3 1) ≠ some Reg.ihdlr ∧ family (.ldr 3 1) ≠ .setHandler :=
  ⟨⟨_, rfl⟩, by decide, by decide, by decide, by decide, by decide, by decide⟩

/-- An instruction that is no jump, and a jump that is not taken. -/
theorem witness_PcAdvances :
    (∃ t, exec (.mv 3 1) (regs []) = .next t) ∧ destination (.mv 3 1) ≠ some Reg.pc ∧
    family (.mv 3 1) ∉ [.interrupt, .interruptReturn] ∧
    (∃ t, exec (.jmp 1 3) { regs [] with sts := 2 } = .next t) ∧
    ({ regs [] with sts := 2 } : State).condHolds condMatchE1 1 = false :=
  ⟨⟨_, rfl⟩, by decide, by decide, ⟨_, rfl⟩, by decide⟩

theorem witness_EveryInstructionCompletes :
    (permissive blitter).params.divZero = .any ∧ (permissive blitter).params.intFromMemory = .execute ∧
    (permissive blitter).bsrcSet = true ∧ (permissive blitter).bdstSet = true ∧ (permissive blitter).bwSet = true ∧
    (permissive blitter).bhSet = true ∧ (permissive State.resetE2).params.edition = .e2 := by decide

theorem witness_E2KeepsE1Meanings : counterpart (.addu 3 1 2) = some (.addui 3 1 2) ∧ counterpart .halt = none := by decide

theorem witness_CompareCallAndReturnE2 :
    (regsE2 []).condHolds condMatchE2 2 = true ∧ ({ regsE2 [] with sts := 0b100010 } : State).condHolds condMatchE2 2 = true ∧
    ({ regsE2 [] with sts := 0b100010 } : State).intFlag = true ∧
    ({ regsE2 [] with sts := 0b100011 } : State).condHolds condMatchE2 2 = false ∧ (regsE2 []).intFlag = false := by decide

theorem witness_HaltIsFinal : State.resetE2.running ∧ State.resetE2.params.edition = .e2 ∧
    (State.resetE2.memRead State.resetE2.pc).extractLsb' 5 3 = 0 := by unfold State.running; decide

end Sys2Proof.Tests
end

/-! PROOFS. Names in a table, and the spellings of the registers (10_state.md R34, 30_encoding.md R103). -/

namespace Sys2Proof.Machine

/-- A name's entry, in a table whose keys differ, is the one listed with that key. -/
theorem named_eq_some_iff {α : Type} (table : List (String × α)) (name : List Char) (v : α)
    (distinct : (table.map (·.1)).Nodup) :
    named table name = some v ↔ ∃ k, (k, v) ∈ table ∧ k.toList = name := by
  induction table with
  | nil => simp [named]
  | cons entry rest ih =>
    obtain ⟨k, w⟩ := entry
    obtain ⟨fresh, distinct⟩ := List.nodup_cons.1 distinct
    by_cases hk : k.toList = name
    · have unlisted : ∀ j, j.toList = name → (j, v) ∉ rest := fun j hj hmem =>
        fresh (String.toList_inj.1 (hk.trans hj.symm) ▸ List.mem_map_of_mem (f := (·.1)) hmem)
      constructor
      · intro h
        have hw : w = v := by simpa [named, hk] using h
        exact ⟨k, by simp [hw], hk⟩
      · rintro ⟨j, hmem, hj⟩
        obtain heq | hmem := List.mem_cons.1 hmem
        · simp [named, hk, (Prod.mk.inj heq).2]
        · exact absurd hmem (unlisted j hj)
    · have other : ∀ j, j.toList = name → j ≠ k := by
        rintro j hj rfl
        exact hk hj
      have skipped : named ((k, w) :: rest) name = named rest name := by simp [named, hk]
      rw [skipped, ih distinct]
      refine exists_congr fun j => and_congr_left fun hj => ?_
      simp [other j hj]

/-- The table of assembly names, entry by entry (10_state.md R34). -/
theorem named_registerAliases (name : List Char) (r : Reg) :
    named registerAliases name = some r ↔
      (name = "INTLR".toList ∧ r = 26) ∨ (name = "IHDLR".toList ∧ r = 27) ∨ (name = "PC".toList ∧ r = 28) ∨
        (name = "STS".toList ∧ r = 29) ∨ (name = "SP".toList ∧ r = 30) ∨ (name = "LR".toList ∧ r = 31) := by
  rw [named_eq_some_iff _ _ _ (by decide)]
  simp [registerAliases, or_and_right, exists_or, and_comm, eq_comm]

/-- No name of the table begins with the `R` of a numbered register, so such a token reads as the table has it. -/
theorem registerNamed_of_alias (name : List Char) (r : Reg) (h : named registerAliases name = some r) :
    registerNamed name = some r := by
  have notNumbered : ∀ digits, name ≠ 'R' :: digits := by
    rintro digits rfl
    simp [named_registerAliases] at h
  unfold registerNamed
  split
  · exact absurd rfl (notNumbered _)
  · exact h

/-- `R` and the decimal number of a register name that register (30_encoding.md R103). -/
theorem registerNamed_number (r : Reg) : registerNamed ('R' :: Nat.toDigits 10 r.val) = some r := by
  revert r
  decide

end Sys2Proof.Machine

/-! PROOFS. The registers an E1 instruction can write: the destination it names, the pc, and those its kind writes
without naming them (10_state.md R13 to R26). -/

namespace Sys2Proof.Machine

/-- The registers that the instructions of a kind write without naming them, besides the pc. -/
def implicitlyWritten : Family → List Reg
  | .arithmetic | .compare | .interruptReturn => [Reg.sts]
  | .push | .pop => [Reg.sp]
  | .subroutineJump => [Reg.lr]
  | .setHandler => [Reg.ihdlr]
  | .interrupt => [Reg.sts, Reg.intlr]
  | .general | .load | .store | .jump | .graphics => []

/-- Every register an E1 instruction can write; `exec_registers` ties it to the meanings. -/
def writtenRegisters (i : Instr) : List Reg :=
  (destination i).toList ++ Reg.pc :: implicitlyWritten (family i)

theorem mem_writtenRegisters (r : Reg) (i : Instr) :
    r ∈ writtenRegisters i ↔ destination i = some r ∨ r = Reg.pc ∨ r ∈ implicitlyWritten (family i) := by
  simp [writtenRegisters]

/-! ### What each shared operation leaves -/

theorem SameRegistersBut.mono {ds es : List Reg} {s t : State} (h : SameRegistersBut ds s t) (hsub : ds ⊆ es) :
    SameRegistersBut es s t := fun r hr => h r fun hd => hr (hsub hd)

/-- A frame stated of the next state an operation has, for the next state it answered. -/
theorem sameRegistersBut_of_next {ds : List Reg} {s t : State} {result : Result} (h : result = .next t)
    (spec : ∃ u, result = .next u ∧ SameRegistersBut ds s u) : SameRegistersBut ds s t := by
  obtain ⟨u, hu, frame⟩ := spec
  cases h.symm.trans hu
  exact frame

theorem sameRegistersBut_advance (s : State) : SameRegistersBut [Reg.pc] s s.advance :=
  fun r hr => s.getReg_advance r (by simpa using hr)

theorem finishArithmetic_registers {d : Reg} {v : Word} {s t : State} (h : finishArithmetic d v s = .next t) :
    SameRegistersBut [d, Reg.pc, Reg.sts] s t :=
  sameRegistersBut_of_next h ((finishArithmetic_spec d v s).imp fun _ ⟨hu, w⟩ => ⟨hu, w.registers⟩)

/-- A division that completes ends like every arithmetic instruction, whichever value it writes. -/
theorem divide_registers {q : Word → Word → Option Word} {d : Reg} {a b : Word} {s t : State}
    (h : divide q d a b s = .next t) : SameRegistersBut [d, Reg.pc, Reg.sts] s t := by
  unfold divide at h
  split at h
  · split at h
    · cases h
    · exact finishArithmetic_registers h
  · split at h <;> exact finishArithmetic_registers h

theorem finishCompare_registers {c : Code} {s t : State} (h : finishCompare c s = .next t) :
    SameRegistersBut [Reg.pc, Reg.sts] s t :=
  sameRegistersBut_of_next h ((finishCompare_spec c s).imp fun _ ⟨hu, w⟩ => ⟨hu, w.registers⟩)

theorem shift_registers {rule : Word → Nat → Option Word} {d : Reg} {n : Nat} {s t : State}
    (h : shift rule d n s = .next t) : SameRegistersBut [d, Reg.pc] s t := by
  refine sameRegistersBut_of_next h ?_
  cases hv : shiftBy rule (s.getReg d) n with
  | some v => exact (shift_spec rule d n s v hv).imp fun _ ⟨hu, w⟩ => ⟨hu, w.registers⟩
  | none =>
    obtain ⟨v, u, hu, w⟩ := shift_any_spec rule d n s hv
    exact ⟨u, hu, w.registers⟩

theorem store_registers {ea v : Word} {s t : State} (h : store ea v s = .next t) : SameRegistersBut [Reg.pc] s t :=
  sameRegistersBut_of_next h ((store_spec ea v s).imp fun _ ⟨hu, w⟩ => ⟨hu, w.registers⟩)

/-- PUSH: the store, from the state with the lowered SP (42_memory_instructions.md R196). -/
theorem pushWord_registers {r : Reg} {s t : State} (h : pushWord r s = .next t) :
    SameRegistersBut [Reg.pc, Reg.sp] s t := by
  intro x hx
  obtain ⟨hpc, hsp⟩ : x ≠ Reg.pc ∧ x ≠ Reg.sp := by simpa using hx
  rw [store_registers h x (by simpa using hpc), State.getReg_setReg_ne _ _ _ _ hsp]

/-- POP: the load into `d`, then the raised SP (42_memory_instructions.md R197). -/
theorem popWord_registers {d : Reg} {s t : State} (h : popWord d s = .next t) :
    SameRegistersBut [d, Reg.pc, Reg.sp] s t := by
  cases h
  intro x hx
  obtain ⟨hd, hpc, hsp⟩ : x ≠ d ∧ x ≠ Reg.pc ∧ x ≠ Reg.sp := by simpa using hx
  rw [State.getReg_retire _ _ _ hpc, State.getReg_setReg_ne _ _ _ _ hsp, State.getReg_setReg_ne _ _ _ _ hd]

/-- A state that differs in the pc alone. -/
theorem sameRegistersBut_withPc (s : State) (a : Word) : SameRegistersBut [Reg.pc] s { s with pc := a } :=
  fun r hr => State.getReg_pc_congr s { s with pc := a } rfl rfl rfl rfl rfl rfl r (by simpa using hr)

theorem jump_registers {taken : Bool} {target : Word} {s t : State} (h : jump taken target s = .next t) :
    SameRegistersBut [Reg.pc] s t := by
  cases taken with
  | true => cases h; exact sameRegistersBut_withPc s target
  | false => cases h; exact sameRegistersBut_advance s

/-- A subroutine jump: the link, then the jump; or no more than the advance (43_control.md R214, R215). -/
theorem jumpSubroutine_registers {taken : Bool} {target : State → Word} {s t : State}
    (h : jumpSubroutine taken target s = .next t) : SameRegistersBut [Reg.pc, Reg.lr] s t := by
  cases taken with
  | true =>
    cases h
    intro x hx
    obtain ⟨hpc, hlr⟩ : x ≠ Reg.pc ∧ x ≠ Reg.lr := by simpa using hx
    rw [sameRegistersBut_withPc s.link _ x (by simpa using hpc)]
    exact State.getReg_setReg_ne _ _ _ _ hlr
  | false => cases h; exact (sameRegistersBut_advance s).mono (by simp)

theorem performInterrupt_registers {code : BitVec 4} {s t : State} (h : performInterrupt code s = .next t) :
    SameRegistersBut [Reg.pc, Reg.sts, Reg.intlr] s t := by
  unfold performInterrupt at h
  split at h
  · cases h
  · split at h
    · cases h; exact (entersHandler_takeInterrupt code s).registers.mono (by simp)
    · cases h; exact (sameRegistersBut_advance s).mono (by simp)

theorem State.interruptReturn_of_flag {s : State} (h : s.intFlag = true) :
    s.interruptReturn = s.returnFromInterrupt := if_pos h

theorem interruptReturn_registers (s : State) : SameRegistersBut [Reg.pc, Reg.sts] s s.interruptReturn := by
  by_cases hf : s.intFlag = true
  · rw [State.interruptReturn_of_flag hf]
    intro r hr
    obtain ⟨hpc, hsts⟩ : r ≠ Reg.pc ∧ r ≠ Reg.sts := by simpa using hr
    exact State.getReg_pc_sts_congr s s.returnFromInterrupt rfl rfl rfl rfl rfl r hpc hsts
  · rw [State.interruptReturn, if_neg hf]
    exact (sameRegistersBut_advance s).mono (by simp)

theorem blit_registers {op : BitVec 4} {mask : Byte} {s t : State} (h : blit op mask s = .next t) :
    SameRegistersBut [Reg.pc] s t := by
  unfold blit at h
  split at h
  · cases h; exact sameRegistersBut_advance _
  · cases h

/-! ### Every instruction -/

/-- An E1 instruction that completes leaves every register outside `writtenRegisters` as it was. -/
theorem exec_registers {i : Instr} {s t : State} (h : exec i s = .next t) :
    SameRegistersBut (writtenRegisters i) s t := by
  cases i with
  | addui | addsi | addf | adduiImm | addsiImm | addfImm | subui | subsi | subf | subuiImm | subsiImm | subfImm
  | divf | divfImm | mltui | mltsi | mltf | mltuiImm | mltsiImm | mltfImm => exact finishArithmetic_registers h
  | divui | divuiImm => exact divide_registers (q := divUnsigned) h
  | divsi | divsiImm => exact divide_registers (q := divSigned) h
  | cmpui | cmpsi | cmpf => exact finishCompare_registers h
  | mv | and | andImm | or | orImm | xor | xorImm | not | ldr | ldrImm =>
    cases h
    exact (writesRegister_writeBack _ _ s).registers
  | asl | asr | aslImm | asrImm | lsl | lslImm | lsr | lsrImm => exact shift_registers h
  | str | strImm => exact store_registers h
  | push => exact pushWord_registers h
  | pop => exact popWord_registers h
  | jmp | jmpImm => exact jump_registers h
  | jmps _ r => exact jumpSubroutine_registers (target := fun u => u.getReg r) h
  | jmpsImm _ k => exact jumpSubroutine_registers (target := fun u => u.jumpTarget (imm23 k)) h
  | sih =>
    cases h
    exact (writesRegister_writeBack _ _ s).registers.mono
      (by simp [writtenRegisters, destination, family, implicitlyWritten])
  | int | intImm => exact performInterrupt_registers h
  | ijmp => cases h; exact interruptReturn_registers s
  | glod | blitmem | blitdims | blitdimsImm => cases h; exact sameRegistersBut_advance _
  | blit | blitImm => exact blit_registers h

/-! ### INTLR -/

/-- Only an interrupt writes INTLR without naming it (10_state.md R14). -/
theorem intlr_mem_implicitlyWritten (f : Family) : Reg.intlr ∈ implicitlyWritten f ↔ f = .interrupt := by
  cases f <;> decide

theorem State.enter_intlr {s : State} (code : BitVec 4) (h : s.interruptAccepted = true) :
    (s.enter code).intlr = s.pc := by
  simp [State.enter, h]

theorem exec_ijmp_pc {s t : State} (hf : s.intFlag = true) (h : exec .ijmp s = .next t) : t.pc = s.intlr := by
  cases h
  simp [State.interruptReturn_of_flag hf]

theorem exec_intlr {i : Instr} {s t : State} (h : exec i s = .next t) (hd : destination i ≠ some Reg.intlr)
    (hf : family i ≠ .interrupt) : t.intlr = s.intlr := by
  have unwritten : Reg.intlr ∉ writtenRegisters i := by
    rw [mem_writtenRegisters, intlr_mem_implicitlyWritten]
    rintro (isDestination | isPc | isInterrupt)
    · exact hd isDestination
    · exact absurd isPc (by decide)
    · exact hf isInterrupt
  exact exec_registers h Reg.intlr unwritten

end Sys2Proof.Machine

/-! PROOFS. The statements about the registers (10_state.md). -/

namespace Sys2Proof.Settled

open Sys2Proof.Machine

/-- Settles O6: the table entry by entry, then the two spellings of one register. -/
theorem registerAliases : Obligations.RegisterAliases :=
  ⟨named_registerAliases, fun name r h => ⟨registerNamed_of_alias name r h, registerNamed_number r⟩⟩

/-- Settles O44: entry and return by their own equations, every other instruction by the registers it can write. -/
theorem interruptLinkRegister : Obligations.InterruptLinkRegister :=
  ⟨fun _ code h => State.enter_intlr code h, fun _ _ hf h => exec_ijmp_pc hf h,
    fun _ _ _ h hd hf => exec_intlr h hd hf⟩

end Sys2Proof.Settled

/-! PROOFS. The ALU words of MV, NOT, AND, OR and XOR: Type 0, and the operation code of each (30_encoding.md R74, R75). -/

namespace Sys2Proof

theorem decode_of_aluType (tag : Option FormTag) {w : Word} (type : w.extractLsb' 5 2 = 0) :
    decode tag w = decodeAlu w := by
  simp [decode, type]

section
variable {w : Word}

theorem decodeAlu_mv (op : w.extractLsb' 7 6 = 25) : decodeAlu w = .ok (.mv (regField w 13) (regField w 18)) := by
  simp [decodeAlu, op]

theorem decodeAlu_and (op : w.extractLsb' 7 6 = 37) :
    decodeAlu w = .ok (.and (regField w 13) (regField w 18) (regField w 23)) := by
  simp [decodeAlu, op]

theorem decodeAlu_andImm (op : w.extractLsb' 7 6 = 38) :
    decodeAlu w = .ok (.andImm (regField w 13) (regField w 18) (w.extractLsb' 23 9)) := by
  simp [decodeAlu, op]

theorem decodeAlu_or (op : w.extractLsb' 7 6 = 39) :
    decodeAlu w = .ok (.or (regField w 13) (regField w 18) (regField w 23)) := by
  simp [decodeAlu, op]

theorem decodeAlu_orImm (op : w.extractLsb' 7 6 = 40) :
    decodeAlu w = .ok (.orImm (regField w 13) (regField w 18) (w.extractLsb' 23 9)) := by
  simp [decodeAlu, op]

theorem decodeAlu_xor (op : w.extractLsb' 7 6 = 41) :
    decodeAlu w = .ok (.xor (regField w 13) (regField w 18) (regField w 23)) := by
  simp [decodeAlu, op]

theorem decodeAlu_xorImm (op : w.extractLsb' 7 6 = 42) :
    decodeAlu w = .ok (.xorImm (regField w 13) (regField w 18) (w.extractLsb' 23 9)) := by
  simp [decodeAlu, op]

theorem decodeAlu_not (op : w.extractLsb' 7 6 = 43) : decodeAlu w = .ok (.not (regField w 13) (regField w 18)) := by
  simp [decodeAlu, op]

end

end Sys2Proof

/-! PROOFS. What MV, NOT, AND, OR and XOR do: one register write, of a value read before it (41_alu_general.md R151, R165
to R171). -/

namespace Sys2Proof.Machine

/-- An instruction that answers a `writeBack` completes, and its only effect is that register write. -/
theorem writesRegister_of_exec {i : Instr} {d : Reg} {v : Word} {s : State}
    (h : exec i s = .next (s.writeBack d v)) : ∃ t, exec i s = .next t ∧ WritesRegister d v s t :=
  ⟨_, h, writesRegister_writeBack d v s⟩

section
variable (d a b : Reg) (k : BitVec 9) (s : State)

theorem exec_mv : exec (.mv d a) s = .next (s.writeBack d (s.getReg a)) := rfl

theorem exec_not : exec (.not d a) s = .next (s.writeBack d (~~~ s.getReg a)) := rfl

theorem exec_and : exec (.and d a b) s = .next (s.writeBack d (s.getReg a &&& s.getReg b)) := rfl

/-- The immediate is sign-extended (30_encoding.md R87), as in `exec_orImm` and `exec_xorImm`. -/
theorem exec_andImm : exec (.andImm d a k) s = .next (s.writeBack d (s.getReg a &&& k.signExtend 32)) := rfl

theorem exec_or : exec (.or d a b) s = .next (s.writeBack d (s.getReg a ||| s.getReg b)) := rfl

theorem exec_orImm : exec (.orImm d a k) s = .next (s.writeBack d (s.getReg a ||| k.signExtend 32)) := rfl

theorem exec_xor : exec (.xor d a b) s = .next (s.writeBack d (s.getReg a ^^^ s.getReg b)) := rfl

theorem exec_xorImm : exec (.xorImm d a k) s = .next (s.writeBack d (s.getReg a ^^^ k.signExtend 32)) := rfl

end

end Sys2Proof.Machine

/-! PROOFS. The statements about the general ALU instructions that move or combine bits (41_alu_general.md). -/

namespace Sys2Proof.Settled

open Sys2Proof.Machine

/-- Settles O26: the two words through the ALU decoder, the spec's example encodings by evaluation, and each effect as one
register write. -/
theorem moveAndComplement : Obligations.MoveAndComplement := by
  refine ⟨fun tag w type => ?decoding, by decide, by decide, fun d a s => ?effects⟩
  case decoding =>
    rw [decode_of_aluType tag type]
    exact ⟨decodeAlu_mv, decodeAlu_not⟩
  case effects =>
    exact ⟨writesRegister_of_exec (exec_mv d a s), writesRegister_of_exec (exec_not d a s)⟩

/-- Settles O27: the six words through the ALU decoder, and each effect as one register write. -/
theorem bitwiseLogic : Obligations.BitwiseLogic := by
  refine ⟨fun tag w type => ?decoding, fun d a b k s => ?effects⟩
  case decoding =>
    rw [decode_of_aluType tag type]
    exact ⟨decodeAlu_and, decodeAlu_andImm, decodeAlu_or, decodeAlu_orImm, decodeAlu_xor, decodeAlu_xorImm⟩
  case effects =>
    exact ⟨writesRegister_of_exec (exec_and d a b s), writesRegister_of_exec (exec_andImm d a k s),
      writesRegister_of_exec (exec_or d a b s), writesRegister_of_exec (exec_orImm d a k s),
      writesRegister_of_exec (exec_xor d a b s), writesRegister_of_exec (exec_xorImm d a k s)⟩

end Sys2Proof.Settled

/-! PROOFS. The memory words of LDR and STR: Type 1, and the operation code of each (30_encoding.md R77, R78). -/

namespace Sys2Proof

theorem decode_of_memoryType (tag : Option FormTag) {w : Word} (type : w.extractLsb' 5 2 = 1) :
    decode tag w = decodeMemory w := by
  simp [decode, type]

section
variable {w : Word}

theorem decodeMemory_ldr (op : w.extractLsb' 7 3 = 0) :
    decodeMemory w = .ok (.ldr (regField w 10) (regField w 15)) := by
  simp [decodeMemory, op]

theorem decodeMemory_ldrImm (op : w.extractLsb' 7 3 = 1) :
    decodeMemory w = .ok (.ldrImm (regField w 10) (w.extractLsb' 15 17)) := by
  simp [decodeMemory, op]

theorem decodeMemory_str (op : w.extractLsb' 7 3 = 2) :
    decodeMemory w = .ok (.str (regField w 10) (regField w 15)) := by
  simp [decodeMemory, op]

theorem decodeMemory_strImm (op : w.extractLsb' 7 3 = 3) :
    decodeMemory w = .ok (.strImm (regField w 10) (w.extractLsb' 15 17)) := by
  simp [decodeMemory, op]

end

end Sys2Proof

/-! PROOFS. What LDR and STR do: one load or one store, at the address of the operand form (42_memory_instructions.md R192
to R195). -/

namespace Sys2Proof.Machine

section
variable (d r a : Reg) (k : BitVec 17) (s : State)

theorem exec_ldr : exec (.ldr d a) s = load d (s.getReg a) s := rfl

/-- The offset is sign-extended (30_encoding.md R87) and counts from the next word (R191), as in `exec_strImm`. -/
theorem exec_ldrImm : exec (.ldrImm d k) s = load d (s.pc + 1 + k.signExtend 32) s := rfl

theorem exec_str : exec (.str r a) s = store (s.getReg a) (s.getReg r) s := rfl

theorem exec_strImm : exec (.strImm r k) s = store (s.pc + 1 + k.signExtend 32) (s.getReg r) s := rfl

end

end Sys2Proof.Machine

/-! PROOFS. The statements about the loads and stores of one word (42_memory_instructions.md). -/

namespace Sys2Proof.Settled

open Sys2Proof.Machine

/-- Settles O32: the two words through the memory decoder, the spec's example encodings by evaluation, and each effect as
one load, at the address of its form. -/
theorem loadWord : Obligations.LoadWord := by
  refine ⟨fun tag w type => ?decoding, by decide, by decide, fun d a k s => ⟨?register, ?offset⟩⟩
  case decoding =>
    rw [decode_of_memoryType tag type]
    exact ⟨decodeMemory_ldr, decodeMemory_ldrImm⟩
  case register =>
    rw [exec_ldr]
    exact load_spec d (s.getReg a) s
  case offset =>
    rw [exec_ldrImm]
    exact load_spec d (s.pc + 1 + k.signExtend 32) s

/-- Settles O33: the two words through the memory decoder, the spec's example encodings by evaluation, and each effect as
one store, at the address of its form, of the register as it stood before. -/
theorem storeWord : Obligations.StoreWord := by
  refine ⟨fun tag w type => ?decoding, by decide, by decide, fun r a k s => ⟨?register, ?offset⟩⟩
  case decoding =>
    rw [decode_of_memoryType tag type]
    exact ⟨decodeMemory_str, decodeMemory_strImm⟩
  case register =>
    rw [exec_str]
    exact store_spec (s.getReg a) (s.getReg r) s
  case offset =>
    rw [exec_strImm]
    exact store_spec (s.pc + 1 + k.signExtend 32) (s.getReg r) s

end Sys2Proof.Settled

/-! PROOFS. The control words of JMP, SIH and IJMP: Type 2, the operation code of each, and for the Jump code the form that
the tag names (30_encoding.md R79, R80, R92). -/

namespace Sys2Proof

theorem decode_of_controlType (tag : Option FormTag) {w : Word} (type : w.extractLsb' 5 2 = 2) :
    decode tag w = decodeControl tag w := by
  simp [decode, type]

section
variable {w : Word}

theorem decodeControl_jump (tag : Option FormTag) (op : w.extractLsb' 7 2 = 0) :
    decodeControl tag w = decodeJump tag w := by
  simp [decodeControl, op]

theorem decodeJump_jmp (w : Word) :
    decodeJump (some ⟨.reg, .normal⟩) w = .ok (.jmp (w.extractLsb' 0 5) (regField w 9)) := rfl

theorem decodeJump_jmpImm (w : Word) :
    decodeJump (some ⟨.imm, .normal⟩) w = .ok (.jmpImm (w.extractLsb' 0 5) (w.extractLsb' 9 23)) := rfl

theorem decodeControl_sih (tag : Option FormTag) (op : w.extractLsb' 7 2 = 1) :
    decodeControl tag w = .ok (.sih (regField w 9)) := by
  simp [decodeControl, op]

theorem decodeControl_ijmp (tag : Option FormTag) (op : w.extractLsb' 7 2 = 3) :
    decodeControl tag w = .ok .ijmp := by
  simp [decodeControl, op]

end

end Sys2Proof

/-! PROOFS. What JMP, SIH and IJMP do: a move of the pc, a write of the handler register, a return (43_control.md R212, R213,
R216, R221). -/

namespace Sys2Proof.Machine

/-! ### Moves of the pc -/

/-- A new pc and nothing else, which is a jump to it. -/
theorem jumpsTo_withPc (s : State) (a : Word) : JumpsTo [] a s { s with pc := a } where
  pc := rfl
  registers := sameRegistersBut_withPc s a
  memory := fun _ => rfl
  graphics := SameGraphics.of_eq rfl rfl ⟨rfl, rfl, rfl, rfl, rfl, rfl, rfl, rfl⟩ ⟨rfl, rfl, rfl, rfl, rfl⟩

theorem jumpsTo_advance (s : State) : JumpsTo [] (s.pc + 1) s s.advance :=
  jumpsTo_withPc s (s.pc + 1)

/-- A jump completes, taken or not (43_control.md R212, R213). -/
theorem jump_spec (taken : Bool) (target : Word) (s : State) :
    ∃ t, jump taken target s = .next t ∧ JumpsTo [] (if taken then target else s.pc + 1) s t := by
  cases taken with
  | true => exact ⟨_, rfl, jumpsTo_withPc s target⟩
  | false => exact ⟨_, rfl, jumpsTo_advance s⟩

theorem exec_jmp (c : Code) (r : Reg) (s : State) :
    exec (.jmp c r) s = jump (s.condHolds condMatchE1 c) (s.getReg r) s := rfl

/-- The offset is sign-extended (30_encoding.md R87) and counts from the address of the jump itself (43_control.md R213). -/
theorem exec_jmpImm (c : Code) (k : BitVec 23) (s : State) :
    exec (.jmpImm c k) s = jump (s.condHolds condMatchE1 c) (s.pc + k.signExtend 32) s := rfl

/-! ### The handler register -/

/-- An interrupt is taken exactly when a handler is set and none is being handled (60_exceptions.md R402). -/
theorem State.interruptAccepted_iff (s : State) :
    s.interruptAccepted = true ↔ s.ihdlr ≠ handlerUnset ∧ s.intFlag = false := by
  simp [State.interruptAccepted, and_comm]

/-- The interrupt flag is bit 5 of register 29 (10_state.md R19, R21). -/
theorem State.intFlag_eq_getReg_sts (s : State) : s.intFlag = (s.getReg Reg.sts).getLsbD 5 := by
  simp [State.intFlag]

/-- A write to a register other than the status register leaves the interrupt flag. -/
theorem WritesRegister.intFlag {d : Reg} {v : Word} {s t : State} (w : WritesRegister d v s t) (hd : d ≠ Reg.sts) :
    t.intFlag = s.intFlag := by
  have unwritten : Reg.sts ∉ [d, Reg.pc] := by simp [hd.symm, Reg.sts, Reg.pc]
  rw [t.intFlag_eq_getReg_sts, s.intFlag_eq_getReg_sts, w.registers Reg.sts unwritten]

/-- After a write of the handler register, its new value and the old flag decide whether an interrupt is taken
(43_control.md R216). -/
theorem WritesRegister.interruptAccepted_iff {v : Word} {s t : State} (w : WritesRegister Reg.ihdlr v s t) :
    t.interruptAccepted = true ↔ v ≠ handlerUnset ∧ s.intFlag = false := by
  have handler : t.ihdlr = v := w.value
  rw [t.interruptAccepted_iff, handler, w.intFlag (by decide)]

theorem exec_sih (r : Reg) (s : State) : exec (.sih r) s = .next (s.writeBack Reg.ihdlr (s.getReg r)) := rfl

/-! ### The return -/

theorem exec_ijmp (s : State) : exec .ijmp s = .next s.interruptReturn := rfl

theorem State.interruptReturn_of_clear {s : State} (h : s.intFlag = false) : s.interruptReturn = s.advance := by
  simp [State.interruptReturn, h]

@[simp] theorem State.code_returnFromInterrupt (s : State) : s.returnFromInterrupt.code = s.code := by
  simp [State.code]

@[simp] theorem State.intFlag_returnFromInterrupt (s : State) : s.returnFromInterrupt.intFlag = false := by
  simp [State.intFlag]

/-- A return is a jump to INTLR that also writes the status register (60_exceptions.md R410). -/
theorem jumpsTo_returnFromInterrupt {s : State} (h : s.intFlag = true) :
    JumpsTo [Reg.sts] s.intlr s s.returnFromInterrupt where
  pc := rfl
  registers := State.interruptReturn_of_flag h ▸ interruptReturn_registers s
  memory := fun _ => rfl
  graphics := SameGraphics.of_eq rfl rfl ⟨rfl, rfl, rfl, rfl, rfl, rfl, rfl, rfl⟩ ⟨rfl, rfl, rfl, rfl, rfl⟩

end Sys2Proof.Machine

/-! PROOFS. The statements about JMP, SIH and IJMP (43_control.md). -/

namespace Sys2Proof.Settled

open Sys2Proof.Machine

/-- Settles O38: the two words through the control decoder, each under its tag, the spec's example encodings by evaluation,
and each effect as one jump, to the target of its form. -/
theorem jump : Obligations.Jump := by
  refine ⟨fun w type op => ?decoding, by decide, by decide, by decide, fun c r k s => ⟨?register, ?offset⟩⟩
  case decoding =>
    rw [decode_of_controlType _ type, decode_of_controlType _ type, decodeControl_jump _ op, decodeControl_jump _ op]
    exact ⟨decodeJump_jmp w, decodeJump_jmpImm w⟩
  case register =>
    rw [exec_jmp]
    exact jump_spec (s.condHolds condMatchE1 c) (s.getReg r) s
  case offset =>
    rw [exec_jmpImm]
    exact jump_spec (s.condHolds condMatchE1 c) (s.pc + k.signExtend 32) s

/-- Settles O40: the word through the control decoder, the effect as one write of IHDLR, and from that write whether an
interrupt is then taken. -/
theorem setInterruptHandler : Obligations.SetInterruptHandler := by
  refine ⟨fun tag w type op => ?decoding, by decide, fun r s => ?effect⟩
  case decoding =>
    rw [decode_of_controlType tag type]
    exact decodeControl_sih tag op
  case effect =>
    obtain ⟨t, next, write⟩ := writesRegister_of_exec (exec_sih r s)
    exact ⟨t, next, write, write.interruptAccepted_iff⟩

/-- Settles O42: the word through the control decoder, the effect split on the flag: the pc's advance, or the return. -/
theorem returnFromInterrupt : Obligations.ReturnFromInterrupt := by
  refine ⟨fun tag w type op => ?decoding, by decide, fun s => ⟨fun clear => ?advancing, fun handling => ?returning⟩⟩
  case decoding =>
    rw [decode_of_controlType tag type]
    exact decodeControl_ijmp tag op
  case advancing =>
    rw [exec_ijmp, State.interruptReturn_of_clear clear]
    exact ⟨_, rfl, jumpsTo_advance s⟩
  case returning =>
    rw [exec_ijmp, State.interruptReturn_of_flag handling]
    exact ⟨_, rfl, s.intFlag_returnFromInterrupt, s.code_returnFromInterrupt, jumpsTo_returnFromInterrupt handling⟩

end Sys2Proof.Settled

/-! PROOFS. The graphics words of BLITMEM and BLITDIMS: Type 3, the operation code of each, and for BLITDIMS the form that the
tag names (30_encoding.md R82, R83, R92). -/

namespace Sys2Proof

theorem decode_of_graphicsType (tag : Option FormTag) {w : Word} (type : w.extractLsb' 5 2 = 3) :
    decode tag w = decodeGraphics tag w := by
  simp [decode, type]

section
variable {w : Word}

theorem decodeGraphics_blitmem (tag : Option FormTag) (op : w.extractLsb' 7 2 = 1) :
    decodeGraphics tag w = .ok (.blitmem (regField w 9) (regField w 14)) := by
  simp [decodeGraphics, op]

theorem decodeGraphics_blitdims (op : w.extractLsb' 7 2 = 2) (j : JumpKind) :
    decodeGraphics (some ⟨.reg, j⟩) w = .ok (.blitdims (regField w 9) (regField w 14)) := by
  simp [decodeGraphics, op]

theorem decodeGraphics_blitdimsImm (op : w.extractLsb' 7 2 = 2) (j : JumpKind) :
    decodeGraphics (some ⟨.imm, j⟩) w = .ok (.blitdimsImm (w.extractLsb' 9 7) (w.extractLsb' 16 7)) := by
  simp [decodeGraphics, op]

end

end Sys2Proof

/-! PROOFS. What BLITMEM and BLITDIMS do: two Blitter registers and their marks, and the pc's advance (44_graphics.md R246 to
R248). -/

namespace Sys2Proof.Machine

/-- The low bits of a register, in the spec's notation for a field (44_graphics.md R240). -/
theorem State.lowBits_eq_extractLsb' (s : State) (r : Reg) {n : Nat} (fits : n ≤ 32) :
    s.lowBits r n = (s.getReg r).extractLsb' 0 n :=
  BitVec.setWidth_eq_extractLsb' fits

/-- Nothing outside the Blitter registers and the pc differs. -/
def SameButBlitter (s t : State) : Prop :=
  SameRegistersBut [Reg.pc] s t ∧ SameMemory s t ∧ SameScreen s t ∧ SameSprites s t ∧ SameSetting s t

/-- New Blitter registers and marks, whichever, then the pc's advance. -/
theorem sameButBlitter_advance (s : State) (src : BitVec 12) (dst : BitVec 16) (w h : BitVec 7)
    (srcSet dstSet wSet hSet : Bool) :
    SameButBlitter s (State.advance { s with
      bsrc := src, bdst := dst, bw := w, bh := h,
      bsrcSet := srcSet, bdstSet := dstSet, bwSet := wSet, bhSet := hSet }) :=
  ⟨sameRegistersBut_advance _, fun _ => rfl, fun _ => rfl, fun _ => rfl, ⟨rfl, rfl, rfl, rfl, rfl⟩⟩

theorem exec_blitmem (r d : Reg) (s : State) :
    exec (.blitmem r d) s = .next (State.advance { s with
      bsrc := (s.getReg r).extractLsb' 0 12, bdst := (s.getReg d).extractLsb' 0 16,
      bsrcSet := true, bdstSet := true }) := by
  rw [← s.lowBits_eq_extractLsb' r (by decide), ← s.lowBits_eq_extractLsb' d (by decide)]
  rfl

theorem exec_blitdims (w h : Reg) (s : State) :
    exec (.blitdims w h) s = setDimensions ((s.getReg w).extractLsb' 0 7) ((s.getReg h).extractLsb' 0 7) s := by
  rw [← s.lowBits_eq_extractLsb' w (by decide), ← s.lowBits_eq_extractLsb' h (by decide)]
  rfl

theorem exec_blitdimsImm (x y : BitVec 7) (s : State) : exec (.blitdimsImm x y) s = setDimensions x y s := rfl

/-- The dimensions are set, and the place of the transfer stays (44_graphics.md R247, R248). -/
theorem setDimensions_spec (w h : BitVec 7) (s : State) :
    ∃ t, setDimensions w h s = .next t ∧ t.pc = s.pc + 1 ∧ t.bw = w ∧ t.bh = h ∧ t.bwSet = true ∧ t.bhSet = true ∧
      t.bsrc = s.bsrc ∧ t.bdst = s.bdst ∧ t.bsrcSet = s.bsrcSet ∧ t.bdstSet = s.bdstSet ∧ SameButBlitter s t :=
  ⟨_, rfl, rfl, rfl, rfl, rfl, rfl, rfl, rfl, rfl, rfl,
    sameButBlitter_advance s s.bsrc s.bdst w h s.bsrcSet s.bdstSet true true⟩

/-- The place of the transfer is set, and the dimensions stay (44_graphics.md R246). -/
theorem exec_blitmem_spec (r d : Reg) (s : State) :
    ∃ t, exec (.blitmem r d) s = .next t ∧ t.pc = s.pc + 1 ∧
      t.bsrc = (s.getReg r).extractLsb' 0 12 ∧ t.bdst = (s.getReg d).extractLsb' 0 16 ∧
      t.bsrcSet = true ∧ t.bdstSet = true ∧ t.bw = s.bw ∧ t.bh = s.bh ∧ t.bwSet = s.bwSet ∧ t.bhSet = s.bhSet ∧
      SameButBlitter s t :=
  ⟨_, exec_blitmem r d s, rfl, rfl, rfl, rfl, rfl, rfl, rfl, rfl, rfl,
    sameButBlitter_advance s _ _ s.bw s.bh true true s.bwSet s.bhSet⟩

end Sys2Proof.Machine

/-! PROOFS. The statements about the Blitter registers (44_graphics.md). -/

namespace Sys2Proof.Settled

open Sys2Proof.Machine

/-- Settles O47: the word through the graphics decoder, the spec's example encoding by evaluation, and the effect as one
setting of the transfer's place. -/
theorem setBlitterMemory : Obligations.SetBlitterMemory := by
  refine ⟨fun tag w type op => ?decoding, by decide, fun r d s => ?effect⟩
  case decoding =>
    rw [decode_of_graphicsType tag type]
    exact decodeGraphics_blitmem tag op
  case effect => exact exec_blitmem_spec r d s

/-- Settles O48: the two words through the graphics decoder, each under its tag, the spec's example encodings by evaluation,
and each effect as one setting of the dimensions, to the operands of its form. -/
theorem setBlitterDimensions : Obligations.SetBlitterDimensions := by
  refine ⟨fun w type op j => ?decoding, by decide, by decide, fun w h x y s p form => ?effect⟩
  case decoding =>
    rw [decode_of_graphicsType _ type, decode_of_graphicsType _ type]
    exact ⟨decodeGraphics_blitdims op j, decodeGraphics_blitdimsImm op j⟩
  case effect =>
    obtain rfl | rfl := List.mem_pair.mp form
    · rw [exec_blitdims]
      exact setDimensions_spec ((s.getReg w).extractLsb' 0 7) ((s.getReg h).extractLsb' 0 7) s
    · rw [exec_blitdimsImm]
      exact setDimensions_spec x y s

end Sys2Proof.Settled

/-! PROOFS. The jump words of E2: Type 0, the operation bit set, and the form that the tag names (49 R305, R332). -/

namespace Sys2Proof.Machine

theorem decodeE2_of_controlType (tag : Option FormTag) {w : Word} (type : w.extractLsb' 5 2 = 0) :
    decodeE2 tag w = decodeControlE2 tag w := by
  simp [decodeE2, type]

/-- A one-bit field is 1 when the bit is set. -/
theorem getLsbD_of_bitField {w : Word} {lo : Nat} (field : w.extractLsb' lo 1 = 1) : w.getLsbD lo = true := by
  have bit : (w.extractLsb' lo 1).getLsbD 0 = true := by rw [field]; rfl
  simpa using bit

section
variable {w : Word}

theorem decodeControlE2_jmp (op : w.extractLsb' 7 1 = 1) :
    decodeControlE2 (some ⟨.reg, .normal⟩) w = .ok (.jmp (w.extractLsb' 0 5) (regField w 8)) :=
  if_pos (getLsbD_of_bitField op)

theorem decodeControlE2_jmpImm (op : w.extractLsb' 7 1 = 1) :
    decodeControlE2 (some ⟨.imm, .normal⟩) w = .ok (.jmpImm (w.extractLsb' 0 5) (w.extractLsb' 8 24)) :=
  if_pos (getLsbD_of_bitField op)

end

end Sys2Proof.Machine

/-! PROOFS. What JMP of E2 does: the jump of E1 under the condition table of E2 (49 R333, R334). -/

namespace Sys2Proof.Machine

theorem execE2_jmp (c : Code) (r : Reg) (s : State) :
    execE2 (.jmp c r) s = jump (s.condHolds condMatchE2 c) (s.getReg r) s := rfl

/-- The offset of 24 bits is sign-extended and counts from the address of the jump itself (49 R334). -/
theorem execE2_jmpImm (c : Code) (k : BitVec 24) (s : State) :
    execE2 (.jmpImm c k) s = jump (s.condHolds condMatchE2 c) (s.pc + k.signExtend 32) s := rfl

end Sys2Proof.Machine

/-! PROOFS. The statement about JMP of E2 (49 section 5). -/

namespace Sys2Proof.Settled

open Sys2Proof.Machine

/-- Settles O58: the two words through the control decoder of E2, each under its tag, the example encodings by evaluation,
and each effect as one jump, to the target of its form. -/
theorem jumpE2 : Obligations.JumpE2 := by
  refine ⟨fun w type op => ?decoding, by decide, by decide, by decide, by decide,
    fun c r k s => ⟨?register, ?offset⟩⟩
  case decoding =>
    rw [decodeE2_of_controlType _ type, decodeE2_of_controlType _ type]
    exact ⟨decodeControlE2_jmp op, decodeControlE2_jmpImm op⟩
  case register =>
    rw [execE2_jmp]
    exact jump_spec (s.condHolds condMatchE2 c) (s.getReg r) s
  case offset =>
    rw [execE2_jmpImm]
    exact jump_spec (s.condHolds condMatchE2 c) (s.pc + k.signExtend 32) s

end Sys2Proof.Settled

/-! PROOFS. The fields of an encoded word, one lemma for each layout (30_encoding.md R94): each field is read back from its
own place. The two editions share the ALU, memory and graphics layouts (49 R305 to R308), so these lemmas leave the
condition and the Type open. -/

namespace Sys2Proof

theorem field_eq {n lo len : Nat} {v : BitVec len} (place : n % 2 ^ 32 / 2 ^ lo % 2 ^ len = v.toNat) :
    (BitVec.ofNat 32 n).extractLsb' lo len = v :=
  BitVec.eq_of_toNat_eq ((field_toNat n lo len).trans place)

/-- A field that holds a number, which is how a layout gives its Type and its Operation. -/
theorem numberField_eq {n lo len m : Nat} (place : n % 2 ^ 32 / 2 ^ lo % 2 ^ len = m % 2 ^ len) :
    (BitVec.ofNat 32 n).extractLsb' lo len = BitVec.ofNat len m :=
  field_eq (place.trans (BitVec.toNat_ofNat m len).symm)

theorem regField_eq {n lo : Nat} {r : Reg} (place : n % 2 ^ 32 / 2 ^ lo % 32 = r.val) :
    regField (BitVec.ofNat 32 n) lo = r :=
  Fin.ext ((regField_val n lo).trans place)

section
variable {w : Word} {type op : Nat} (c : Code) (d a b : Reg) (htype : type < 4)
include htype

/-! ### ALU words -/

theorem aluRRR_fields (hop : op < 64)
    (hw : w = BitVec.ofNat 32 (encHead c type op + d.val * 2 ^ 13 + a.val * 2 ^ 18 + b.val * 2 ^ 23)) :
    w.extractLsb' 5 2 = BitVec.ofNat 2 type ∧ w.extractLsb' 7 6 = BitVec.ofNat 6 op ∧
      regField w 13 = d ∧ regField w 18 = a ∧ regField w 23 = b := by
  subst hw
  have := c.isLt
  refine ⟨numberField_eq ?_, numberField_eq ?_, regField_eq ?_, regField_eq ?_, regField_eq ?_⟩ <;>
    unfold encHead <;> omega

theorem aluRRI_fields (hop : op < 64) (i : BitVec 9)
    (hw : w = BitVec.ofNat 32 (encHead c type op + d.val * 2 ^ 13 + a.val * 2 ^ 18 + i.toNat * 2 ^ 23)) :
    w.extractLsb' 5 2 = BitVec.ofNat 2 type ∧ w.extractLsb' 7 6 = BitVec.ofNat 6 op ∧
      regField w 13 = d ∧ regField w 18 = a ∧ w.extractLsb' 23 9 = i := by
  subst hw
  have := c.isLt
  refine ⟨numberField_eq ?_, numberField_eq ?_, regField_eq ?_, regField_eq ?_, field_eq ?_⟩ <;>
    unfold encHead <;> omega

theorem aluRR_fields (hop : op < 64)
    (hw : w = BitVec.ofNat 32 (encHead c type op + d.val * 2 ^ 13 + a.val * 2 ^ 18)) :
    w.extractLsb' 5 2 = BitVec.ofNat 2 type ∧ w.extractLsb' 7 6 = BitVec.ofNat 6 op ∧
      regField w 13 = d ∧ regField w 18 = a := by
  subst hw
  have := c.isLt
  refine ⟨numberField_eq ?_, numberField_eq ?_, regField_eq ?_, regField_eq ?_⟩ <;> unfold encHead <;> omega

theorem aluSHI_fields (hop : op < 64) (i : BitVec 14)
    (hw : w = BitVec.ofNat 32 (encHead c type op + d.val * 2 ^ 13 + i.toNat * 2 ^ 18)) :
    w.extractLsb' 5 2 = BitVec.ofNat 2 type ∧ w.extractLsb' 7 6 = BitVec.ofNat 6 op ∧
      regField w 13 = d ∧ w.extractLsb' 18 14 = i := by
  subst hw
  have := c.isLt
  refine ⟨numberField_eq ?_, numberField_eq ?_, regField_eq ?_, field_eq ?_⟩ <;> unfold encHead <;> omega

/-! ### Memory words -/

theorem memoryRR_fields (hop : op < 8)
    (hw : w = BitVec.ofNat 32 (encHead c type op + d.val * 2 ^ 10 + a.val * 2 ^ 15)) :
    w.extractLsb' 5 2 = BitVec.ofNat 2 type ∧ w.extractLsb' 7 3 = BitVec.ofNat 3 op ∧
      regField w 10 = d ∧ regField w 15 = a := by
  subst hw
  have := c.isLt
  refine ⟨numberField_eq ?_, numberField_eq ?_, regField_eq ?_, regField_eq ?_⟩ <;> unfold encHead <;> omega

theorem memoryRI_fields (hop : op < 8) (i : BitVec 17)
    (hw : w = BitVec.ofNat 32 (encHead c type op + d.val * 2 ^ 10 + i.toNat * 2 ^ 15)) :
    w.extractLsb' 5 2 = BitVec.ofNat 2 type ∧ w.extractLsb' 7 3 = BitVec.ofNat 3 op ∧
      regField w 10 = d ∧ w.extractLsb' 15 17 = i := by
  subst hw
  have := c.isLt
  refine ⟨numberField_eq ?_, numberField_eq ?_, regField_eq ?_, field_eq ?_⟩ <;> unfold encHead <;> omega

theorem memoryR_fields (hop : op < 8) (hw : w = BitVec.ofNat 32 (encHead c type op + d.val * 2 ^ 10)) :
    w.extractLsb' 5 2 = BitVec.ofNat 2 type ∧ w.extractLsb' 7 3 = BitVec.ofNat 3 op ∧ regField w 10 = d := by
  subst hw
  have := c.isLt
  refine ⟨numberField_eq ?_, numberField_eq ?_, regField_eq ?_⟩ <;> unfold encHead <;> omega

/-! ### Graphics words -/

theorem graphicsRRR_fields (hop : op < 4)
    (hw : w = BitVec.ofNat 32 (encHead c type op + d.val * 2 ^ 9 + a.val * 2 ^ 14 + b.val * 2 ^ 19)) :
    w.extractLsb' 5 2 = BitVec.ofNat 2 type ∧ w.extractLsb' 7 2 = BitVec.ofNat 2 op ∧
      regField w 9 = d ∧ regField w 14 = a ∧ regField w 19 = b := by
  subst hw
  have := c.isLt
  refine ⟨numberField_eq ?_, numberField_eq ?_, regField_eq ?_, regField_eq ?_, regField_eq ?_⟩ <;>
    unfold encHead <;> omega

theorem graphicsRR_fields (hop : op < 4)
    (hw : w = BitVec.ofNat 32 (encHead c type op + d.val * 2 ^ 9 + a.val * 2 ^ 14)) :
    w.extractLsb' 5 2 = BitVec.ofNat 2 type ∧ w.extractLsb' 7 2 = BitVec.ofNat 2 op ∧
      regField w 9 = d ∧ regField w 14 = a := by
  subst hw
  have := c.isLt
  refine ⟨numberField_eq ?_, numberField_eq ?_, regField_eq ?_, regField_eq ?_⟩ <;> unfold encHead <;> omega

theorem graphicsI77_fields (hop : op < 4) (x y : BitVec 7)
    (hw : w = BitVec.ofNat 32 (encHead c type op + x.toNat * 2 ^ 9 + y.toNat * 2 ^ 16)) :
    w.extractLsb' 5 2 = BitVec.ofNat 2 type ∧ w.extractLsb' 7 2 = BitVec.ofNat 2 op ∧
      w.extractLsb' 9 7 = x ∧ w.extractLsb' 16 7 = y := by
  subst hw
  have := c.isLt
  refine ⟨numberField_eq ?_, numberField_eq ?_, field_eq ?_, field_eq ?_⟩ <;> unfold encHead <;> omega

theorem graphicsI48_fields (hop : op < 4) (x : BitVec 4) (y : BitVec 8)
    (hw : w = BitVec.ofNat 32 (encHead c type op + x.toNat * 2 ^ 9 + y.toNat * 2 ^ 13)) :
    w.extractLsb' 5 2 = BitVec.ofNat 2 type ∧ w.extractLsb' 7 2 = BitVec.ofNat 2 op ∧
      w.extractLsb' 9 4 = x ∧ w.extractLsb' 13 8 = y := by
  subst hw
  have := c.isLt
  refine ⟨numberField_eq ?_, numberField_eq ?_, field_eq ?_, field_eq ?_⟩ <;> unfold encHead <;> omega

/-! ### Control words -/

theorem controlR_fields (hop : op < 4) (hw : w = BitVec.ofNat 32 (encHead c type op + d.val * 2 ^ 9)) :
    w.extractLsb' 5 2 = BitVec.ofNat 2 type ∧ w.extractLsb' 7 2 = BitVec.ofNat 2 op ∧
      w.extractLsb' 0 5 = c ∧ regField w 9 = d := by
  subst hw
  have := c.isLt
  refine ⟨numberField_eq ?_, numberField_eq ?_, field_eq ?_, regField_eq ?_⟩ <;> unfold encHead <;> omega

theorem controlI23_fields (hop : op < 4) (i : BitVec 23)
    (hw : w = BitVec.ofNat 32 (encHead c type op + i.toNat * 2 ^ 9)) :
    w.extractLsb' 5 2 = BitVec.ofNat 2 type ∧ w.extractLsb' 7 2 = BitVec.ofNat 2 op ∧
      w.extractLsb' 0 5 = c ∧ w.extractLsb' 9 23 = i := by
  subst hw
  have := c.isLt
  refine ⟨numberField_eq ?_, numberField_eq ?_, field_eq ?_, field_eq ?_⟩ <;> unfold encHead <;> omega

theorem controlI4_fields (hop : op < 4) (i : BitVec 4)
    (hw : w = BitVec.ofNat 32 (encHead c type op + i.toNat * 2 ^ 9)) :
    w.extractLsb' 5 2 = BitVec.ofNat 2 type ∧ w.extractLsb' 7 2 = BitVec.ofNat 2 op ∧ w.extractLsb' 9 4 = i := by
  subst hw
  have := c.isLt
  refine ⟨numberField_eq ?_, numberField_eq ?_, field_eq ?_⟩ <;> unfold encHead <;> omega

/-- The register Jump of E2 (49 R305): a one-bit Operation, the register in bits 12:8. -/
theorem jumpR_fields (hop : op < 2) (hw : w = BitVec.ofNat 32 (encHead c type op + d.val * 2 ^ 8)) :
    w.extractLsb' 5 2 = BitVec.ofNat 2 type ∧ w.extractLsb' 7 1 = BitVec.ofNat 1 op ∧
      w.extractLsb' 0 5 = c ∧ regField w 8 = d := by
  subst hw
  have := c.isLt
  refine ⟨numberField_eq ?_, numberField_eq ?_, field_eq ?_, regField_eq ?_⟩ <;> unfold encHead <;> omega

/-- The immediate Jump of E2 (49 R305): a one-bit Operation, the offset in bits 31:8. -/
theorem jumpI24_fields (hop : op < 2) (i : BitVec 24)
    (hw : w = BitVec.ofNat 32 (encHead c type op + i.toNat * 2 ^ 8)) :
    w.extractLsb' 5 2 = BitVec.ofNat 2 type ∧ w.extractLsb' 7 1 = BitVec.ofNat 1 op ∧
      w.extractLsb' 0 5 = c ∧ w.extractLsb' 8 24 = i := by
  subst hw
  have := c.isLt
  refine ⟨numberField_eq ?_, numberField_eq ?_, field_eq ?_, field_eq ?_⟩ <;> unfold encHead <;> omega

end

end Sys2Proof

/-! PROOFS. Decoding an encoded E1 word: the Type leads to the family's decoder, which sees the operands of the layout
(30_encoding.md R73, R94). -/

namespace Sys2Proof

section
variable {tag : Option FormTag} {op : Nat} {d a b : Reg} {i : Instr}

theorem decode_encRRR (hop : op < 64)
    (family : ∀ w : Word, w.extractLsb' 7 6 = BitVec.ofNat 6 op → regField w 13 = d → regField w 18 = a →
      regField w 23 = b → decodeAlu w = .ok i) : decode tag (encRRR op d a b) = .ok i := by
  obtain ⟨type, code, hd, ha, hb⟩ := aluRRR_fields nsCode d a b (type := 0) (by decide) hop rfl
  exact (decode_of_aluType tag type).trans (family _ code hd ha hb)

theorem decode_encRRI {k : BitVec 9} (hop : op < 64)
    (family : ∀ w : Word, w.extractLsb' 7 6 = BitVec.ofNat 6 op → regField w 13 = d → regField w 18 = a →
      w.extractLsb' 23 9 = k → decodeAlu w = .ok i) : decode tag (encRRI op d a k) = .ok i := by
  obtain ⟨type, code, hd, ha, hk⟩ := aluRRI_fields nsCode d a (type := 0) (by decide) hop k rfl
  exact (decode_of_aluType tag type).trans (family _ code hd ha hk)

theorem decode_encRR (hop : op < 64)
    (family : ∀ w : Word, w.extractLsb' 7 6 = BitVec.ofNat 6 op → regField w 13 = d → regField w 18 = a →
      decodeAlu w = .ok i) : decode tag (encRR op d a) = .ok i := by
  obtain ⟨type, code, hd, ha⟩ := aluRR_fields nsCode d a (type := 0) (by decide) hop rfl
  exact (decode_of_aluType tag type).trans (family _ code hd ha)

theorem decode_encSHI {k : BitVec 14} (hop : op < 64)
    (family : ∀ w : Word, w.extractLsb' 7 6 = BitVec.ofNat 6 op → regField w 13 = d → w.extractLsb' 18 14 = k →
      decodeAlu w = .ok i) : decode tag (encSHI op d k) = .ok i := by
  obtain ⟨type, code, hd, hk⟩ := aluSHI_fields nsCode d (type := 0) (by decide) hop k rfl
  exact (decode_of_aluType tag type).trans (family _ code hd hk)

theorem decode_encMRR (hop : op < 8)
    (family : ∀ w : Word, w.extractLsb' 7 3 = BitVec.ofNat 3 op → regField w 10 = d → regField w 15 = a →
      decodeMemory w = .ok i) : decode tag (encMRR op d a) = .ok i := by
  obtain ⟨type, code, hd, ha⟩ := memoryRR_fields nsCode d a (type := 1) (by decide) hop rfl
  exact (decode_of_memoryType tag type).trans (family _ code hd ha)

theorem decode_encMRI {k : BitVec 17} (hop : op < 8)
    (family : ∀ w : Word, w.extractLsb' 7 3 = BitVec.ofNat 3 op → regField w 10 = d → w.extractLsb' 15 17 = k →
      decodeMemory w = .ok i) : decode tag (encMRI op d k) = .ok i := by
  obtain ⟨type, code, hd, hk⟩ := memoryRI_fields nsCode d (type := 1) (by decide) hop k rfl
  exact (decode_of_memoryType tag type).trans (family _ code hd hk)

theorem decode_encMR (hop : op < 8)
    (family : ∀ w : Word, w.extractLsb' 7 3 = BitVec.ofNat 3 op → regField w 10 = d → decodeMemory w = .ok i) :
    decode tag (encMR op d) = .ok i := by
  obtain ⟨type, code, hd⟩ := memoryR_fields nsCode d (type := 1) (by decide) hop rfl
  exact (decode_of_memoryType tag type).trans (family _ code hd)

theorem decode_encCR {c : Code} (hop : op < 4)
    (family : ∀ w : Word, w.extractLsb' 7 2 = BitVec.ofNat 2 op → w.extractLsb' 0 5 = c → regField w 9 = d →
      decodeControl tag w = .ok i) : decode tag (encCR op c d) = .ok i := by
  obtain ⟨type, code, hc, hd⟩ := controlR_fields c d (type := 2) (by decide) hop rfl
  exact (decode_of_controlType tag type).trans (family _ code hc hd)

theorem decode_encCI {c : Code} {k : BitVec 23} (hop : op < 4)
    (family : ∀ w : Word, w.extractLsb' 7 2 = BitVec.ofNat 2 op → w.extractLsb' 0 5 = c → w.extractLsb' 9 23 = k →
      decodeControl tag w = .ok i) : decode tag (encCI op c k) = .ok i := by
  obtain ⟨type, code, hc, hk⟩ := controlI23_fields c (type := 2) (by decide) hop k rfl
  exact (decode_of_controlType tag type).trans (family _ code hc hk)

theorem decode_encCI4 {k : BitVec 4} (hop : op < 4)
    (family : ∀ w : Word, w.extractLsb' 7 2 = BitVec.ofNat 2 op → w.extractLsb' 9 4 = k →
      decodeControl tag w = .ok i) : decode tag (encCI4 op k) = .ok i := by
  obtain ⟨type, code, hk⟩ := controlI4_fields nsCode (type := 2) (by decide) hop k rfl
  exact (decode_of_controlType tag type).trans (family _ code hk)

theorem decode_encGRRR (hop : op < 4)
    (family : ∀ w : Word, w.extractLsb' 7 2 = BitVec.ofNat 2 op → regField w 9 = d → regField w 14 = a →
      regField w 19 = b → decodeGraphics tag w = .ok i) : decode tag (encGRRR op d a b) = .ok i := by
  obtain ⟨type, code, hd, ha, hb⟩ := graphicsRRR_fields nsCode d a b (type := 3) (by decide) hop rfl
  exact (decode_of_graphicsType tag type).trans (family _ code hd ha hb)

theorem decode_encGRR (hop : op < 4)
    (family : ∀ w : Word, w.extractLsb' 7 2 = BitVec.ofNat 2 op → regField w 9 = d → regField w 14 = a →
      decodeGraphics tag w = .ok i) : decode tag (encGRR op d a) = .ok i := by
  obtain ⟨type, code, hd, ha⟩ := graphicsRR_fields nsCode d a (type := 3) (by decide) hop rfl
  exact (decode_of_graphicsType tag type).trans (family _ code hd ha)

theorem decode_encGI77 {x y : BitVec 7} (hop : op < 4)
    (family : ∀ w : Word, w.extractLsb' 7 2 = BitVec.ofNat 2 op → w.extractLsb' 9 7 = x → w.extractLsb' 16 7 = y →
      decodeGraphics tag w = .ok i) : decode tag (encGI77 op x y) = .ok i := by
  obtain ⟨type, code, hx, hy⟩ := graphicsI77_fields nsCode (type := 3) (by decide) hop x y rfl
  exact (decode_of_graphicsType tag type).trans (family _ code hx hy)

theorem decode_encGI48 {x : BitVec 4} {y : BitVec 8} (hop : op < 4)
    (family : ∀ w : Word, w.extractLsb' 7 2 = BitVec.ofNat 2 op → w.extractLsb' 9 4 = x → w.extractLsb' 13 8 = y →
      decodeGraphics tag w = .ok i) : decode tag (encGI48 op x y) = .ok i := by
  obtain ⟨type, code, hx, hy⟩ := graphicsI48_fields nsCode (type := 3) (by decide) hop x y rfl
  exact (decode_of_graphicsType tag type).trans (family _ code hx hy)

end

/-- Every E1 instruction, by its format. -/
theorem decode_encode (i : Instr) : decode (some (formTag i)) (encode i) = .ok i := by
  cases i with
  | addui | addsi | addf | subui | subsi | subf | divui | divsi | divf | mltui | mltsi | mltf | and | or | xor =>
    exact decode_encRRR (by decide) fun w code hd ha hb => by simp [decodeAlu, code, hd, ha, hb]
  | adduiImm | addsiImm | addfImm | subuiImm | subsiImm | subfImm | divuiImm | divsiImm | divfImm | mltuiImm | mltsiImm
  | mltfImm | andImm | orImm | xorImm =>
    exact decode_encRRI (by decide) fun w code hd ha hk => by simp [decodeAlu, code, hd, ha, hk]
  | mv | cmpui | cmpsi | cmpf | asl | asr | lsl | lsr | not =>
    exact decode_encRR (by decide) fun w code hd ha => by simp [decodeAlu, code, hd, ha]
  | aslImm | asrImm | lslImm | lsrImm =>
    exact decode_encSHI (by decide) fun w code hd hk => by simp [decodeAlu, code, hd, hk]
  | ldr | str => exact decode_encMRR (by decide) fun w code hd ha => by simp [decodeMemory, code, hd, ha]
  | ldrImm | strImm => exact decode_encMRI (by decide) fun w code hd hk => by simp [decodeMemory, code, hd, hk]
  | push | pop => exact decode_encMR (by decide) fun w code hd => by simp [decodeMemory, code, hd]
  | jmp | jmps | sih | int =>
    exact decode_encCR (by decide) fun w code hc hd => by simp [decodeControl, decodeJump, formTag, code, hc, hd]
  | jmpImm | jmpsImm =>
    exact decode_encCI (by decide) fun w code hc hk => by simp [decodeControl, decodeJump, formTag, code, hc, hk]
  | intImm => exact decode_encCI4 (by decide) fun w code hk => by simp [decodeControl, formTag, code, hk]
  | ijmp => rfl
  | glod =>
    exact decode_encGRRR (by decide) fun w code hd ha hb => by simp [decodeGraphics, code, hd, ha, hb]
  | blitmem | blitdims | blit =>
    exact decode_encGRR (by decide) fun w code hd ha => by simp [decodeGraphics, formTag, code, hd, ha]
  | blitdimsImm =>
    exact decode_encGI77 (by decide) fun w code hx hy => by simp [decodeGraphics, formTag, code, hx, hy]
  | blitImm => exact decode_encGI48 (by decide) fun w code hx hy => by simp [decodeGraphics, formTag, code, hx, hy]

end Sys2Proof

/-! PROOFS. Decoding an encoded E2 word, by the same layouts under E2's Types (49 R305, R308). -/

namespace Sys2Proof.Machine

theorem decodeE2_of_aluType (tag : Option FormTag) {w : Word} (type : w.extractLsb' 5 2 = 1) :
    decodeE2 tag w = decodeAluE2 w := by
  simp [decodeE2, type]

theorem decodeE2_of_memoryType (tag : Option FormTag) {w : Word} (type : w.extractLsb' 5 2 = 2) :
    decodeE2 tag w = decodeMemoryE2 w := by
  simp [decodeE2, type]

theorem decodeE2_of_graphicsType (tag : Option FormTag) {w : Word} (type : w.extractLsb' 5 2 = 3) :
    decodeE2 tag w = decodeGraphicsE2 tag w := by
  simp [decodeE2, type]

section
variable {tag : Option FormTag} {op : Nat} {d a b : Reg} {i : InstrE2}

theorem decodeE2_e2RRR (hop : op < 64)
    (family : ∀ w : Word, w.extractLsb' 7 6 = BitVec.ofNat 6 op → regField w 13 = d → regField w 18 = a →
      regField w 23 = b → decodeAluE2 w = .ok i) : decodeE2 tag (e2RRR op d a b) = .ok i := by
  obtain ⟨type, code, hd, ha, hb⟩ := aluRRR_fields 0 d a b (type := 1) (by decide) hop rfl
  exact (decodeE2_of_aluType tag type).trans (family _ code hd ha hb)

theorem decodeE2_e2RRI {k : BitVec 9} (hop : op < 64)
    (family : ∀ w : Word, w.extractLsb' 7 6 = BitVec.ofNat 6 op → regField w 13 = d → regField w 18 = a →
      w.extractLsb' 23 9 = k → decodeAluE2 w = .ok i) : decodeE2 tag (e2RRI op d a k) = .ok i := by
  obtain ⟨type, code, hd, ha, hk⟩ := aluRRI_fields 0 d a (type := 1) (by decide) hop k rfl
  exact (decodeE2_of_aluType tag type).trans (family _ code hd ha hk)

theorem decodeE2_e2RR (hop : op < 64)
    (family : ∀ w : Word, w.extractLsb' 7 6 = BitVec.ofNat 6 op → regField w 13 = d → regField w 18 = a →
      decodeAluE2 w = .ok i) : decodeE2 tag (e2RR op d a) = .ok i := by
  obtain ⟨type, code, hd, ha⟩ := aluRR_fields 0 d a (type := 1) (by decide) hop rfl
  exact (decodeE2_of_aluType tag type).trans (family _ code hd ha)

theorem decodeE2_e2SHI {k : BitVec 14} (hop : op < 64)
    (family : ∀ w : Word, w.extractLsb' 7 6 = BitVec.ofNat 6 op → regField w 13 = d → w.extractLsb' 18 14 = k →
      decodeAluE2 w = .ok i) : decodeE2 tag (e2SHI op d k) = .ok i := by
  obtain ⟨type, code, hd, hk⟩ := aluSHI_fields 0 d (type := 1) (by decide) hop k rfl
  exact (decodeE2_of_aluType tag type).trans (family _ code hd hk)

theorem decodeE2_e2MRR (hop : op < 8)
    (family : ∀ w : Word, w.extractLsb' 7 3 = BitVec.ofNat 3 op → regField w 10 = d → regField w 15 = a →
      decodeMemoryE2 w = .ok i) : decodeE2 tag (e2MRR op d a) = .ok i := by
  obtain ⟨type, code, hd, ha⟩ := memoryRR_fields 0 d a (type := 2) (by decide) hop rfl
  exact (decodeE2_of_memoryType tag type).trans (family _ code hd ha)

theorem decodeE2_e2MRI {k : BitVec 17} (hop : op < 8)
    (family : ∀ w : Word, w.extractLsb' 7 3 = BitVec.ofNat 3 op → regField w 10 = d → w.extractLsb' 15 17 = k →
      decodeMemoryE2 w = .ok i) : decodeE2 tag (e2MRI op d k) = .ok i := by
  obtain ⟨type, code, hd, hk⟩ := memoryRI_fields 0 d (type := 2) (by decide) hop k rfl
  exact (decodeE2_of_memoryType tag type).trans (family _ code hd hk)

theorem decodeE2_e2MR (hop : op < 8)
    (family : ∀ w : Word, w.extractLsb' 7 3 = BitVec.ofNat 3 op → regField w 10 = d → decodeMemoryE2 w = .ok i) :
    decodeE2 tag (e2MR op d) = .ok i := by
  obtain ⟨type, code, hd⟩ := memoryR_fields 0 d (type := 2) (by decide) hop rfl
  exact (decodeE2_of_memoryType tag type).trans (family _ code hd)

theorem decodeE2_e2JR {c : Code}
    (family : ∀ w : Word, w.getLsbD 7 = true → w.extractLsb' 0 5 = c → regField w 8 = d →
      decodeControlE2 tag w = .ok i) : decodeE2 tag (e2JR c d) = .ok i := by
  obtain ⟨type, code, hc, hd⟩ := jumpR_fields c d (type := 0) (op := 1) (by decide) (by decide) rfl
  exact (decodeE2_of_controlType tag type).trans (family _ (getLsbD_of_bitField code) hc hd)

theorem decodeE2_e2JI {c : Code} {k : BitVec 24}
    (family : ∀ w : Word, w.getLsbD 7 = true → w.extractLsb' 0 5 = c → w.extractLsb' 8 24 = k →
      decodeControlE2 tag w = .ok i) : decodeE2 tag (e2JI c k) = .ok i := by
  obtain ⟨type, code, hc, hk⟩ := jumpI24_fields c (type := 0) (op := 1) (by decide) (by decide) k rfl
  exact (decodeE2_of_controlType tag type).trans (family _ (getLsbD_of_bitField code) hc hk)

theorem decodeE2_e2GRRR (hop : op < 4)
    (family : ∀ w : Word, w.extractLsb' 7 2 = BitVec.ofNat 2 op → regField w 9 = d → regField w 14 = a →
      regField w 19 = b → decodeGraphicsE2 tag w = .ok i) : decodeE2 tag (e2GRRR op d a b) = .ok i := by
  obtain ⟨type, code, hd, ha, hb⟩ := graphicsRRR_fields 0 d a b (type := 3) (by decide) hop rfl
  exact (decodeE2_of_graphicsType tag type).trans (family _ code hd ha hb)

theorem decodeE2_e2GRR (hop : op < 4)
    (family : ∀ w : Word, w.extractLsb' 7 2 = BitVec.ofNat 2 op → regField w 9 = d → regField w 14 = a →
      decodeGraphicsE2 tag w = .ok i) : decodeE2 tag (e2GRR op d a) = .ok i := by
  obtain ⟨type, code, hd, ha⟩ := graphicsRR_fields 0 d a (type := 3) (by decide) hop rfl
  exact (decodeE2_of_graphicsType tag type).trans (family _ code hd ha)

theorem decodeE2_e2GI77 {x y : BitVec 7} (hop : op < 4)
    (family : ∀ w : Word, w.extractLsb' 7 2 = BitVec.ofNat 2 op → w.extractLsb' 9 7 = x → w.extractLsb' 16 7 = y →
      decodeGraphicsE2 tag w = .ok i) : decodeE2 tag (e2GI77 op x y) = .ok i := by
  obtain ⟨type, code, hx, hy⟩ := graphicsI77_fields 0 (type := 3) (by decide) hop x y rfl
  exact (decodeE2_of_graphicsType tag type).trans (family _ code hx hy)

theorem decodeE2_e2GI48 {x : BitVec 4} {y : BitVec 8} (hop : op < 4)
    (family : ∀ w : Word, w.extractLsb' 7 2 = BitVec.ofNat 2 op → w.extractLsb' 9 4 = x → w.extractLsb' 13 8 = y →
      decodeGraphicsE2 tag w = .ok i) : decodeE2 tag (e2GI48 op x y) = .ok i := by
  obtain ⟨type, code, hx, hy⟩ := graphicsI48_fields 0 (type := 3) (by decide) hop x y rfl
  exact (decodeE2_of_graphicsType tag type).trans (family _ code hx hy)

end

/-- Every E2 instruction, by its format. -/
theorem decodeE2_encodeE2 (i : InstrE2) : decodeE2 (some (formTagE2 i)) (encodeE2 i) = .ok i := by
  cases i with
  | addu | adds | subu | subs | divu | divs | mltu | mlts | and | or | xor =>
    exact decodeE2_e2RRR (by decide) fun w code hd ha hb => by simp [decodeAluE2, code, hd, ha, hb]
  | adduImm | addsImm | subuImm | subsImm | divuImm | divsImm | mltuImm | mltsImm | andImm | orImm | xorImm =>
    exact decodeE2_e2RRI (by decide) fun w code hd ha hk => by simp [decodeAluE2, code, hd, ha, hk]
  | mv | cmp | asl | asr | lsl | lsr | not =>
    exact decodeE2_e2RR (by decide) fun w code hd ha => by simp [decodeAluE2, code, hd, ha]
  | aslImm | asrImm | lslImm | lsrImm =>
    exact decodeE2_e2SHI (by decide) fun w code hd hk => by simp [decodeAluE2, code, hd, hk]
  | ldr | str => exact decodeE2_e2MRR (by decide) fun w code hd ha => by simp [decodeMemoryE2, code, hd, ha]
  | ldrImm | strImm => exact decodeE2_e2MRI (by decide) fun w code hd hk => by simp [decodeMemoryE2, code, hd, hk]
  | push | pop => exact decodeE2_e2MR (by decide) fun w code hd => by simp [decodeMemoryE2, code, hd]
  | halt => rfl
  | jmp | jmps | jmpi =>
    exact decodeE2_e2JR fun w code hc hd => by simp [decodeControlE2, formTagE2, code, hc, hd]
  | jmpImm | jmpsImm | jmpiImm =>
    exact decodeE2_e2JI fun w code hc hk => by simp [decodeControlE2, formTagE2, code, hc, hk]
  | glod =>
    exact decodeE2_e2GRRR (by decide) fun w code hd ha hb => by simp [decodeGraphicsE2, code, hd, ha, hb]
  | blitmem | blitdims | blit =>
    exact decodeE2_e2GRR (by decide) fun w code hd ha => by simp [decodeGraphicsE2, formTagE2, code, hd, ha]
  | blitdimsImm =>
    exact decodeE2_e2GI77 (by decide) fun w code hx hy => by simp [decodeGraphicsE2, formTagE2, code, hx, hy]
  | blitImm =>
    exact decodeE2_e2GI48 (by decide) fun w code hx hy => by simp [decodeGraphicsE2, formTagE2, code, hx, hy]

end Sys2Proof.Machine

/-! PROOFS. Decoding reads no bit below bit 5 outside a Jump (30_encoding.md R72). -/

namespace Sys2Proof

/-- Words that agree on bits 31:5 agree on every field above bit 4. -/
theorem field_congr {v w : Word} (same : v.extractLsb' 5 27 = w.extractLsb' 5 27) {lo len : Nat} (above : 5 ≤ lo)
    (inside : lo + len ≤ 32) : v.extractLsb' lo len = w.extractLsb' lo len := by
  apply BitVec.eq_of_getLsbD_eq
  intro i hi
  have bit := congrArg (·.getLsbD (lo - 5 + i)) same
  have place : 5 + (lo - 5 + i) = lo + i := by omega
  have low : lo - 5 + i < 27 := by omega
  simpa [BitVec.getLsbD_extractLsb', place, low, hi] using bit

section
variable {v w : Word} (same : v.extractLsb' 5 27 = w.extractLsb' 5 27)
include same

theorem decodeAlu_congr : decodeAlu v = decodeAlu w := by
  unfold decodeAlu regField
  simp (disch := decide) only [field_congr same]

theorem decodeMemory_congr : decodeMemory v = decodeMemory w := by
  unfold decodeMemory regField
  simp (disch := decide) only [field_congr same]

theorem decodeGraphics_congr (tag : Option FormTag) : decodeGraphics tag v = decodeGraphics tag w := by
  unfold decodeGraphics regField
  simp (disch := decide) only [field_congr same]

/-- Only the Jump code leads to `decodeJump`, which reads the condition. -/
theorem decodeControl_congr (tag : Option FormTag) (notJump : w.extractLsb' 7 2 ≠ 0) :
    decodeControl tag v = decodeControl tag w := by
  unfold decodeControl regField
  simp (disch := decide) only [field_congr same]
  split
  case h_1 isJump => exact absurd (BitVec.eq_of_toNat_eq isJump) notJump
  all_goals rfl

theorem decode_congr (tag : Option FormTag) (notJump : ¬ (w.extractLsb' 5 2 = 2 ∧ w.extractLsb' 7 2 = 0)) :
    decode tag v = decode tag w := by
  unfold decode
  rw [field_congr same (by decide) (by decide), decodeAlu_congr same, decodeMemory_congr same,
    decodeGraphics_congr same]
  split
  case h_3 type => exact decodeControl_congr same tag fun isJump => notJump ⟨BitVec.eq_of_toNat_eq type, isJump⟩
  all_goals rfl

end

end Sys2Proof

/-! PROOFS. Which words each family's decoder refuses, and how (30_encoding.md R76, R78, R92; 49 R307, R332). -/

namespace Sys2Proof

/-- The four values of a two-bit field. -/
theorem twoBits_cases (t : BitVec 2) : t = 0 ∨ t = 1 ∨ t = 2 ∨ t = 3 := by
  revert t
  decide

theorem decodeAlu_error (w : Word) (e : DecodeError) :
    decodeAlu w = .error e ↔
      e = .illegalInstruction ∧ ((w.extractLsb' 7 6).toNat = 0 ∨ 44 ≤ (w.extractLsb' 7 6).toNat) := by
  have bound := (w.extractLsb' 7 6).isLt
  unfold decodeAlu
  generalize (w.extractLsb' 7 6).toNat = n at bound ⊢
  interval_cases n <;> simp [eq_comm]

theorem decodeMemory_error (w : Word) (e : DecodeError) :
    decodeMemory w = .error e ↔ e = .illegalInstruction ∧ 6 ≤ (w.extractLsb' 7 3).toNat := by
  have bound := (w.extractLsb' 7 3).isLt
  unfold decodeMemory
  generalize (w.extractLsb' 7 3).toNat = n at bound ⊢
  interval_cases n <;> simp [eq_comm]

theorem decodeJump_error (tag : Option FormTag) (w : Word) (e : DecodeError) :
    decodeJump tag w = .error e ↔ e = .noFormTag ∧ (tag = none ∨ ∃ m, tag = some ⟨m, .interruptReturn⟩) := by
  rcases tag with _ | ⟨_ | _, _ | _ | _⟩ <;> simp [decodeJump, eq_comm]

theorem decodeControl_error (tag : Option FormTag) (w : Word) (e : DecodeError) :
    decodeControl tag w = .error e ↔ e = .noFormTag ∧
      ((tag = none ∧ (w.extractLsb' 7 2 = 0 ∨ w.extractLsb' 7 2 = 2)) ∨
        (w.extractLsb' 7 2 = 0 ∧ ∃ m, tag = some ⟨m, .interruptReturn⟩)) := by
  rcases twoBits_cases (w.extractLsb' 7 2) with op | op | op | op
  · rw [decodeControl_jump tag op, decodeJump_error]
    simp [op]
  · simp [decodeControl, op]
  · rcases tag with _ | ⟨_ | _, _⟩ <;> simp [decodeControl, op, eq_comm]
  · simp [decodeControl, op]

theorem decodeGraphics_error (tag : Option FormTag) (w : Word) (e : DecodeError) :
    decodeGraphics tag w = .error e ↔
      e = .noFormTag ∧ tag = none ∧ (w.extractLsb' 7 2 = 2 ∨ w.extractLsb' 7 2 = 3) := by
  rcases twoBits_cases (w.extractLsb' 7 2) with op | op | op | op <;>
    rcases tag with _ | ⟨_ | _, _⟩ <;> simp [decodeGraphics, op, eq_comm]

end Sys2Proof

namespace Sys2Proof.Machine

theorem decodeAluE2_error (w : Word) (e : DecodeError) :
    decodeAluE2 w = .error e ↔ e = .illegalInstruction ∧
      ((w.extractLsb' 7 6).toNat ∈ [0, 14, 22, 30] ∨ 37 ≤ (w.extractLsb' 7 6).toNat) := by
  have bound := (w.extractLsb' 7 6).isLt
  unfold decodeAluE2
  generalize (w.extractLsb' 7 6).toNat = n at bound ⊢
  interval_cases n <;> simp [eq_comm]

theorem decodeMemoryE2_error (w : Word) (e : DecodeError) :
    decodeMemoryE2 w = .error e ↔ e = .illegalInstruction ∧ 6 ≤ (w.extractLsb' 7 3).toNat := by
  have bound := (w.extractLsb' 7 3).isLt
  unfold decodeMemoryE2
  generalize (w.extractLsb' 7 3).toNat = n at bound ⊢
  interval_cases n <;> simp [eq_comm]

/-- A one-bit field is 1 exactly when the bit is set. -/
theorem bitField_eq_one_iff (w : Word) (lo : Nat) : w.extractLsb' lo 1 = 1 ↔ w.getLsbD lo = true := by
  refine ⟨getLsbD_of_bitField, fun bit => ?_⟩
  apply BitVec.eq_of_getLsbD_eq
  intro i hi
  obtain rfl : i = 0 := by omega
  simpa using bit

theorem decodeControlE2_error (tag : Option FormTag) (w : Word) (e : DecodeError) :
    decodeControlE2 tag w = .error e ↔ e = .noFormTag ∧ tag = none ∧ w.extractLsb' 7 1 = 1 := by
  rw [bitField_eq_one_iff]
  unfold decodeControlE2
  cases w.getLsbD 7 with
  | false => simp
  | true => rcases tag with _ | ⟨_ | _, _ | _ | _⟩ <;> simp [eq_comm]

theorem decodeGraphicsE2_error (tag : Option FormTag) (w : Word) (e : DecodeError) :
    decodeGraphicsE2 tag w = .error e ↔
      e = .noFormTag ∧ tag = none ∧ (w.extractLsb' 7 2 = 2 ∨ w.extractLsb' 7 2 = 3) := by
  rcases twoBits_cases (w.extractLsb' 7 2) with op | op | op | op <;>
    rcases tag with _ | ⟨_ | _, _⟩ <;> simp [decodeGraphicsE2, op, eq_comm]

end Sys2Proof.Machine

/-! PROOFS. The statements about the decoders (30_encoding.md, 49 section 2). -/

namespace Sys2Proof.Settled

open Sys2Proof.Machine

/-- Settles O1, format by format. -/
theorem decodeOfEncode : Obligations.DecodeOfEncode := decode_encode

/-- Settles O2, format by format. -/
theorem decodeOfEncodeE2 : Obligations.DecodeOfEncodeE2 := decodeE2_encodeE2

/-- Settles O3: every field that a decoder other than that of the Jump code reads lies above bit 4. -/
theorem conditionIsIgnoredOutsideJumps : Obligations.ConditionIsIgnoredOutsideJumps :=
  fun tag _ _ same notJump => decode_congr same tag notJump

/-- Settles O4: the Type leads to one family's decoder, and that decoder's refusals are known. -/
theorem refusedWords : Obligations.RefusedWords := by
  intro tag w
  rcases twoBits_cases (w.extractLsb' 5 2) with type | type | type | type
  · rw [decode_of_aluType tag type, decodeE2_of_controlType tag type]
    simp [decodeAlu_error, decodeControlE2_error, type]
  · rw [decode_of_memoryType tag type, decodeE2_of_aluType tag type]
    simp [decodeMemory_error, decodeAluE2_error, type]
  · rw [decode_of_controlType tag type, decodeE2_of_memoryType tag type]
    simp [decodeControl_error, decodeMemoryE2_error, type]
  · rw [decode_of_graphicsType tag type, decodeE2_of_graphicsType tag type]
    simp [decodeGraphics_error, decodeGraphicsE2_error, type]

/-- Settles O5, by evaluation; no tag is looked at where the statement quantifies over it. -/
theorem exampleWordsDecode : Obligations.ExampleWordsDecode :=
  ⟨fun _ => rfl, fun _ => rfl, fun _ => rfl, fun _ => rfl, fun _ => rfl, fun _ => rfl, fun _ => rfl, fun _ => rfl,
    rfl, rfl, rfl, rfl, fun _ => rfl, fun _ => rfl, rfl⟩

end Sys2Proof.Settled

/-! PROOFS. The memories, the Blitter and the setting after an instruction, field by field: what each shared operation leaves
exactly as it was, and the few changes that there are (20_memory.md R44, R46, R47; 44_graphics.md R240). -/

namespace Sys2Proof.Machine

/-- The graphics memories, the Blitter and the setting are the same fields; stronger than `SameGraphics`, which speaks of
what they read as. -/
structure KeepsGraphics (s t : State) : Prop where
  fb : t.fb = s.fb
  spr : t.spr = s.spr
  blitter : SameBlitter s t
  setting : SameSetting s t

/-- Main memory is the same too. -/
structure KeepsMemories (s t : State) : Prop extends KeepsGraphics s t where
  mem : t.mem = s.mem

theorem SameBlitter.trans {s t u : State} (h : SameBlitter s t) (k : SameBlitter t u) : SameBlitter s u :=
  ⟨k.bsrc.trans h.bsrc, k.bdst.trans h.bdst, k.bw.trans h.bw, k.bh.trans h.bh, k.bsrcSet.trans h.bsrcSet,
    k.bdstSet.trans h.bdstSet, k.bwSet.trans h.bwSet, k.bhSet.trans h.bhSet⟩

theorem SameSetting.trans {s t u : State} (h : SameSetting s t) (k : SameSetting t u) : SameSetting s u :=
  ⟨k.halted.trans h.halted, k.params.trans h.params, k.steps.trans h.steps, k.schedule.trans h.schedule,
    k.endPassed.trans h.endPassed⟩

theorem KeepsGraphics.trans {s t u : State} (h : KeepsGraphics s t) (k : KeepsGraphics t u) : KeepsGraphics s u :=
  ⟨k.fb.trans h.fb, k.spr.trans h.spr, h.blitter.trans k.blitter, h.setting.trans k.setting⟩

theorem KeepsMemories.trans {s t u : State} (h : KeepsMemories s t) (k : KeepsMemories t u) : KeepsMemories s u :=
  ⟨h.toKeepsGraphics.trans k.toKeepsGraphics, k.mem.trans h.mem⟩

theorem KeepsGraphics.sameGraphics {s t : State} (h : KeepsGraphics s t) : SameGraphics s t :=
  SameGraphics.of_eq h.fb h.spr h.blitter h.setting

theorem KeepsMemories.sameMemory {s t : State} (h : KeepsMemories s t) : SameMemory s t := fun k => by rw [h.mem]

/-! ### The updates of the state -/

theorem keepsMemories_setReg (s : State) (d : Reg) (v : Word) : KeepsMemories s (s.setReg d v) :=
  ⟨⟨by simp, by simp, ⟨by simp, by simp, by simp, by simp, by simp, by simp, by simp, by simp⟩,
    ⟨by simp, by simp, by simp, by simp, by simp⟩⟩, by simp⟩

theorem keepsMemories_withPc (s : State) (a : Word) : KeepsMemories s { s with pc := a } :=
  ⟨⟨rfl, rfl, ⟨rfl, rfl, rfl, rfl, rfl, rfl, rfl, rfl⟩, ⟨rfl, rfl, rfl, rfl, rfl⟩⟩, rfl⟩

theorem keepsMemories_withSts (s : State) (v : BitVec 6) : KeepsMemories s { s with sts := v } :=
  ⟨⟨rfl, rfl, ⟨rfl, rfl, rfl, rfl, rfl, rfl, rfl, rfl⟩, ⟨rfl, rfl, rfl, rfl, rfl⟩⟩, rfl⟩

theorem keepsMemories_drawn (s : State) : KeepsMemories s s.drawn :=
  ⟨⟨rfl, rfl, ⟨rfl, rfl, rfl, rfl, rfl, rfl, rfl, rfl⟩, ⟨rfl, rfl, rfl, rfl, rfl⟩⟩, rfl⟩

theorem keepsGraphics_memWrite (s : State) (a v : Word) : KeepsGraphics s (s.memWrite a v) :=
  ⟨rfl, rfl, ⟨rfl, rfl, rfl, rfl, rfl, rfl, rfl, rfl⟩, ⟨rfl, rfl, rfl, rfl, rfl⟩⟩

theorem keepsGraphics_takeInterrupt (s : State) (code : BitVec 4) : KeepsGraphics s (s.takeInterrupt code) :=
  ⟨rfl, rfl, ⟨rfl, rfl, rfl, rfl, rfl, rfl, rfl, rfl⟩, ⟨rfl, rfl, rfl, rfl, rfl⟩⟩

theorem keepsMemories_advance (s : State) : KeepsMemories s s.advance := keepsMemories_withPc s _

theorem keepsMemories_retire (s : State) (d : Reg) : KeepsMemories s (s.retire d) := by
  unfold State.retire
  split
  · exact keepsMemories_withPc s s.pc
  · exact keepsMemories_advance s

theorem keepsMemories_writeBack (s : State) (d : Reg) (v : Word) : KeepsMemories s (s.writeBack d v) :=
  (keepsMemories_setReg s d v).trans (keepsMemories_retire _ d)

theorem keepsMemories_setCode (s : State) (c : Code) : KeepsMemories s (s.setCode c) := keepsMemories_withSts s _

theorem keepsMemories_arithmeticStatus (s : State) : KeepsMemories s s.arithmeticStatus :=
  (keepsMemories_setCode s _).trans (keepsMemories_drawn _)

theorem keepsMemories_interruptReturn (s : State) : KeepsMemories s s.interruptReturn := by
  unfold State.interruptReturn
  split
  · exact (keepsMemories_withSts s _).trans (keepsMemories_withPc _ _)
  · exact keepsMemories_advance s

/-! ### The shared operations -/

theorem finishArithmetic_keeps {d : Reg} {v : Word} {s t : State} (h : finishArithmetic d v s = .next t) :
    KeepsMemories s t := by
  cases h
  exact ((keepsMemories_setReg s d v).trans (keepsMemories_arithmeticStatus _)).trans (keepsMemories_retire _ d)

theorem divide_keeps {q : Word → Word → Option Word} {d : Reg} {a b : Word} {s t : State}
    (h : divide q d a b s = .next t) : KeepsMemories s t := by
  unfold divide at h
  split at h
  · split at h
    · cases h
    · exact finishArithmetic_keeps h
  · split at h <;> exact finishArithmetic_keeps h

theorem shift_keeps {rule : Word → Nat → Option Word} {d : Reg} {n : Nat} {s t : State}
    (h : shift rule d n s = .next t) : KeepsMemories s t := by
  unfold shift at h
  split at h
  · cases h
    exact keepsMemories_writeBack s d _
  · cases h
    exact (keepsMemories_drawn s).trans (keepsMemories_writeBack _ d _)

theorem finishCompare_keeps {c : Code} {s t : State} (h : finishCompare c s = .next t) : KeepsMemories s t := by
  cases h
  exact (keepsMemories_setCode s c).trans (keepsMemories_advance _)

theorem popWord_keeps {d : Reg} {s t : State} (h : popWord d s = .next t) : KeepsMemories s t := by
  cases h
  exact ((keepsMemories_setReg s d _).trans (keepsMemories_setReg _ Reg.sp _)).trans (keepsMemories_retire _ d)

theorem jump_keeps {taken : Bool} {target : Word} {s t : State} (h : jump taken target s = .next t) :
    KeepsMemories s t := by
  cases taken with
  | true => cases h; exact keepsMemories_withPc s target
  | false => cases h; exact keepsMemories_advance s

theorem jumpSubroutine_keeps {taken : Bool} {target : State → Word} {s t : State}
    (h : jumpSubroutine taken target s = .next t) : KeepsMemories s t := by
  cases taken with
  | true => cases h; exact (keepsMemories_setReg s Reg.lr _).trans (keepsMemories_withPc _ _)
  | false => cases h; exact keepsMemories_advance s

theorem interruptJump_keeps {taken : Bool} {s t : State} (h : interruptJump taken s = .next t) :
    KeepsMemories s t := by
  cases taken with
  | true => cases h; exact keepsMemories_interruptReturn s
  | false => cases h; exact keepsMemories_advance s

/-! ### Every instruction -/

/-- Everything that an instruction of a kind can do to the memories, the Blitter and the setting: nothing; one store of a word,
by the three kinds that store; or one of the four graphics operations. -/
inductive Effect : Family → State → State → Prop where
  | quiet {f : Family} {s t : State} (keeps : KeepsMemories s t) : Effect f s t
  | stores {f : Family} {s t : State} (storing : f ∈ [.store, .push, .interrupt]) (keeps : KeepsGraphics s t) (a v : Word)
      (mem : t.mem = Memory.writeWord s.mem a v) : Effect f s t
  | copies (s : State) (d : BitVec 12) (a : Word) (n : Nat) :
      Effect .graphics s (State.advance { s with spr := glodCopy s d a n })
  | places (s : State) (src : BitVec 12) (dst : BitVec 16) :
      Effect .graphics s (State.advance { s with bsrc := src, bdst := dst, bsrcSet := true, bdstSet := true })
  | sizes (s : State) (w h : BitVec 7) :
      Effect .graphics s (State.advance { s with bw := w, bh := h, bwSet := true, bhSet := true })
  | transfers (s : State) (op : BitVec 4) (mask : Byte) :
      Effect .graphics s (State.advance { s with fb := blitRows s op mask s.bh.toNat })

theorem store_effect {ea v : Word} {s t : State} (h : store ea v s = .next t) : Effect .store s t := by
  cases h
  exact .stores (by decide) ((keepsGraphics_memWrite s ea v).trans (keepsMemories_advance _).toKeepsGraphics) ea v rfl

theorem pushWord_effect {r : Reg} {s t : State} (h : pushWord r s = .next t) : Effect .push s t := by
  cases h
  exact .stores (by decide) (((keepsMemories_setReg s Reg.sp _).toKeepsGraphics.trans
    (keepsGraphics_memWrite _ _ _)).trans (keepsMemories_advance _).toKeepsGraphics) _ _ (by simp; rfl)

theorem performInterrupt_effect {code : BitVec 4} {s t : State} (h : performInterrupt code s = .next t) :
    Effect .interrupt s t := by
  unfold performInterrupt at h
  split at h
  · cases h
  · split at h
    · cases h
      exact .stores (by decide) (keepsGraphics_takeInterrupt s code) mailbox _ (State.takeInterrupt_mem s code)
    · cases h
      exact .quiet (keepsMemories_advance s)

theorem blit_effect {op : BitVec 4} {mask : Byte} {s t : State} (h : blit op mask s = .next t) :
    Effect .graphics s t := by
  unfold blit at h
  split at h
  · cases h
    exact .transfers s op mask
  · cases h

theorem exec_effect {i : Instr} {s t : State} (h : exec i s = .next t) : Effect (family i) s t := by
  cases i with
  | addui | addsi | addf | adduiImm | addsiImm | addfImm | subui | subsi | subf | subuiImm | subsiImm | subfImm
  | divf | divfImm | mltui | mltsi | mltf | mltuiImm | mltsiImm | mltfImm => exact .quiet (finishArithmetic_keeps h)
  | divui | divuiImm => exact .quiet (divide_keeps (q := divUnsigned) h)
  | divsi | divsiImm => exact .quiet (divide_keeps (q := divSigned) h)
  | cmpui | cmpsi | cmpf => exact .quiet (finishCompare_keeps h)
  | mv | and | andImm | or | orImm | xor | xorImm | not | ldr | ldrImm | sih =>
    cases h
    exact .quiet (keepsMemories_writeBack s _ _)
  | asl | asr | aslImm | asrImm | lsl | lslImm | lsr | lsrImm => exact .quiet (shift_keeps h)
  | str | strImm => exact store_effect h
  | push => exact pushWord_effect h
  | pop => exact .quiet (popWord_keeps h)
  | jmp | jmpImm => exact .quiet (jump_keeps h)
  | jmps _ r => exact .quiet (jumpSubroutine_keeps (target := fun u => u.getReg r) h)
  | jmpsImm _ k => exact .quiet (jumpSubroutine_keeps (target := fun u => u.jumpTarget (imm23 k)) h)
  | int | intImm => exact performInterrupt_effect h
  | ijmp => cases h; exact .quiet (keepsMemories_interruptReturn s)
  | glod => cases h; exact .copies s _ _ _
  | blitmem => cases h; exact .places s _ _
  | blitdims | blitdimsImm => cases h; exact .sizes s _ _
  | blit | blitImm => exact blit_effect h

theorem Effect.setting {f : Family} {s t : State} (e : Effect f s t) : SameSetting s t := by
  cases e with
  | quiet keeps => exact keeps.setting
  | stores _ keeps => exact keeps.setting
  | copies | places | sizes | transfers => exact ⟨rfl, rfl, rfl, rfl, rfl⟩

theorem Effect.sameGraphics {f : Family} {s t : State} (e : Effect f s t) (hf : f ≠ .graphics) : SameGraphics s t := by
  cases e with
  | quiet keeps => exact keeps.sameGraphics
  | stores _ keeps => exact keeps.sameGraphics
  | copies | places | sizes | transfers => exact absurd rfl hf

theorem Effect.sameMemory {f : Family} {s t : State} (e : Effect f s t) (hf : f ∉ [.store, .push, .interrupt]) :
    SameMemory s t := by
  cases e with
  | quiet keeps => exact keeps.sameMemory
  | stores storing => exact absurd storing hf
  | copies | places | sizes | transfers => exact fun _ => rfl

/-! ### Edition E2 -/

/-- The E2 instructions with an E1 counterpart do what it does (49 sections 1, 3, 4 and 6). -/
theorem execE2_of_counterpart {i : InstrE2} {j : Instr} (h : counterpart i = some j) (s : State) :
    execE2 i s = exec j s := by
  cases i with
  | halt | cmp | jmp | jmpImm | jmps | jmpsImm | jmpi | jmpiImm => cases h
  | _ => cases h; rfl

/-- HALT sets its flag; every other E2 instruction has an effect that an E1 instruction can have. -/
theorem execE2_effect {i : InstrE2} {s t : State} (h : execE2 i s = .next t) :
    (i = .halt ∧ t = { s with halted := true }) ∨ (i ≠ .halt ∧ ∃ f, Effect f s t) := by
  cases hc : counterpart i with
  | some j =>
    have notHalt : i ≠ .halt := by rintro rfl; cases hc
    exact .inr ⟨notHalt, family j, exec_effect ((execE2_of_counterpart hc s).symm.trans h)⟩
  | none =>
    cases i with
    | halt => cases h; exact .inl ⟨rfl, rfl⟩
    | cmp => exact .inr ⟨by simp, .compare, .quiet (finishCompare_keeps h)⟩
    | jmp | jmpImm => exact .inr ⟨by simp, .jump, .quiet (jump_keeps h)⟩
    | jmps _ r => exact .inr ⟨by simp, .jump, .quiet (jumpSubroutine_keeps (target := fun u => u.getReg r) h)⟩
    | jmpsImm _ k =>
      exact .inr ⟨by simp, .jump, .quiet (jumpSubroutine_keeps (target := fun u => u.jumpTarget (imm24 k)) h)⟩
    | jmpi | jmpiImm => exact .inr ⟨by simp, .jump, .quiet (interruptJump_keeps h)⟩
    | _ => cases hc

end Sys2Proof.Machine

/-! PROOFS. When an instruction answers a next state and when a fault (60_exceptions.md R420). -/

namespace Sys2Proof.Machine

/-- The result is a next state. -/
def Completes (result : Result) : Prop := ∃ t, result = .next t

theorem Completes.ne_fault {result : Result} (h : Completes result) (f : Fault) : result ≠ .fault f := by
  obtain ⟨t, rfl⟩ := h
  simp

theorem Completes.ne_refused {result : Result} (h : Completes result) (r : Refusal) : result ≠ .refused r := by
  obtain ⟨t, rfl⟩ := h
  simp

/-- A result that is neither a fault nor a refusal. -/
theorem completes_of_ne {result : Result} (noFault : ∀ f, result ≠ .fault f) (noRefusal : ∀ r, result ≠ .refused r) :
    Completes result := by
  cases result with
  | next t => exact ⟨t, rfl⟩
  | fault f => exact absurd rfl (noFault f)
  | refused r => exact absurd rfl (noRefusal r)

theorem shift_completes (rule : Word → Nat → Option Word) (d : Reg) (n : Nat) (s : State) :
    Completes (shift rule d n s) := by
  unfold shift
  split <;> exact ⟨_, rfl⟩

theorem jump_completes (taken : Bool) (target : Word) (s : State) : Completes (jump taken target s) := by
  cases taken <;> exact ⟨_, rfl⟩

theorem jumpSubroutine_completes (taken : Bool) (target : State → Word) (s : State) :
    Completes (jumpSubroutine taken target s) := by
  cases taken <;> exact ⟨_, rfl⟩

theorem interruptJump_completes (taken : Bool) (s : State) : Completes (interruptJump taken s) := by
  cases taken <;> exact ⟨_, rfl⟩

theorem divide_eq_fault_iff (q : Word → Word → Option Word) (d : Reg) (a b : Word) (s : State) (f : Fault) :
    divide q d a b s = .fault f ↔ f = .divideByZero s.pc ∧ s.params.divZero = .fault ∧ b = 0 := by
  unfold divide
  by_cases hb : b = 0
  · rw [if_pos hb]
    cases s.params.divZero <;> simp [hb, finishArithmetic, eq_comm]
  · refine iff_of_false ?_ fun zeroDivisor => hb zeroDivisor.2.2
    rw [if_neg hb]
    cases q a b <;> simp [finishArithmetic]

theorem divide_ne_refused (q : Word → Word → Option Word) (d : Reg) (a b : Word) (s : State) (r : Refusal) :
    divide q d a b s ≠ .refused r := by
  unfold divide
  by_cases hb : b = 0
  · rw [if_pos hb]
    cases s.params.divZero <;> simp [finishArithmetic]
  · rw [if_neg hb]
    cases q a b <;> simp [finishArithmetic]

theorem performInterrupt_eq_fault_iff (code : BitVec 4) (s : State) (f : Fault) :
    performInterrupt code s = .fault f ↔
      f = .internalInstruction s.pc (s.memRead s.pc) ∧ s.params.intFromMemory = .fault := by
  unfold performInterrupt
  cases s.params.intFromMemory with
  | fault => simp [eq_comm]
  | execute => cases s.interruptAccepted <;> simp

theorem performInterrupt_ne_refused (code : BitVec 4) (s : State) (r : Refusal) :
    performInterrupt code s ≠ .refused r := by
  unfold performInterrupt
  cases s.params.intFromMemory with
  | fault => simp
  | execute => cases s.interruptAccepted <;> simp

theorem blit_eq_fault_iff (op : BitVec 4) (mask : Byte) (s : State) (f : Fault) :
    blit op mask s = .fault f ↔ f = .blitterUnset s.pc ∧ s.blitterReady = false := by
  unfold blit
  cases s.blitterReady <;> simp [eq_comm]

theorem blit_ne_refused (op : BitVec 4) (mask : Byte) (s : State) (r : Refusal) : blit op mask s ≠ .refused r := by
  unfold blit
  split <;> simp

/-! ### Every instruction -/

/-- The cases in which an E1 instruction faults; `exec_eq_fault_iff` ties it to the meanings. -/
def FaultCase (i : Instr) (s : State) (f : Fault) : Prop :=
  (f = .divideByZero s.pc ∧ s.params.divZero = .fault ∧
    ∃ d a, (∃ b, (i = .divui d a b ∨ i = .divsi d a b) ∧ s.getReg b = 0) ∨ i = .divuiImm d a 0 ∨ i = .divsiImm d a 0) ∨
  (f = .internalInstruction s.pc (s.memRead s.pc) ∧ s.params.intFromMemory = .fault ∧
    ((∃ r, i = .int r) ∨ ∃ k, i = .intImm k)) ∨
  (f = .blitterUnset s.pc ∧ s.blitterReady = false ∧ ((∃ o m, i = .blit o m) ∨ ∃ o m, i = .blitImm o m))

/-- A sign-extended immediate is 0 only where the immediate is. -/
theorem imm9_eq_zero_iff (k : BitVec 9) : imm9 k = 0#32 ↔ k = 0#9 := by
  revert k
  decide

/-- The instructions that can fault. -/
def mayFault : Instr → Bool
  | .divui .. | .divsi .. | .divuiImm .. | .divsiImm .. | .int _ | .intImm _ | .blit .. | .blitImm .. => true
  | _ => false

theorem exec_completes {i : Instr} (h : mayFault i = false) (s : State) : Completes (exec i s) := by
  cases i with
  | divui | divsi | divuiImm | divsiImm | int | intImm | blit | blitImm => cases h
  | asl | asr | aslImm | asrImm | lsl | lslImm | lsr | lsrImm => exact shift_completes _ _ _ _
  | jmp | jmpImm => exact jump_completes _ _ _
  | jmps _ r => exact jumpSubroutine_completes _ (fun u => u.getReg r) s
  | jmpsImm _ k => exact jumpSubroutine_completes _ (fun u => u.jumpTarget (imm23 k)) s
  | _ => exact ⟨_, rfl⟩

theorem not_faultCase {i : Instr} (h : mayFault i = false) (s : State) (f : Fault) : ¬ FaultCase i s f := by
  rintro (⟨_, _, d, a, ⟨b, rfl | rfl, _⟩ | rfl | rfl⟩ | ⟨_, _, ⟨r, rfl⟩ | ⟨k, rfl⟩⟩ | ⟨_, _, ⟨o, m, rfl⟩ | ⟨o, m, rfl⟩⟩) <;>
    cases h

theorem exec_ne_refused (i : Instr) (s : State) (r : Refusal) : exec i s ≠ .refused r := by
  cases h : mayFault i with
  | false => exact (exec_completes h s).ne_refused r
  | true =>
    cases i with
    | divui | divuiImm => exact divide_ne_refused divUnsigned _ _ _ s r
    | divsi | divsiImm => exact divide_ne_refused divSigned _ _ _ s r
    | int | intImm => exact performInterrupt_ne_refused _ s r
    | blit | blitImm => exact blit_ne_refused _ _ s r
    | _ => cases h

theorem exec_eq_fault_iff (i : Instr) (s : State) (f : Fault) : exec i s = .fault f ↔ FaultCase i s f := by
  cases h : mayFault i with
  | false => exact iff_of_false ((exec_completes h s).ne_fault f) (not_faultCase h s f)
  | true =>
    unfold FaultCase
    cases i with
    | divui d a b =>
      refine (divide_eq_fault_iff divUnsigned d (s.getReg a) (s.getReg b) s f).trans ?_
      simp
    | divsi d a b =>
      refine (divide_eq_fault_iff divSigned d (s.getReg a) (s.getReg b) s f).trans ?_
      simp
    | divuiImm d a k =>
      refine (divide_eq_fault_iff divUnsigned d (s.getReg a) (imm9 k) s f).trans ?_
      simp [imm9_eq_zero_iff]
    | divsiImm d a k =>
      refine (divide_eq_fault_iff divSigned d (s.getReg a) (imm9 k) s f).trans ?_
      simp [imm9_eq_zero_iff]
    | int r =>
      refine (performInterrupt_eq_fault_iff ((s.getReg r).setWidth 4) s f).trans ?_
      simp
    | intImm k =>
      refine (performInterrupt_eq_fault_iff k s f).trans ?_
      simp
    | blit o m =>
      refine (blit_eq_fault_iff (s.lowBits o 4) (s.lowBits m 8) s f).trans ?_
      simp
    | blitImm o m =>
      refine (blit_eq_fault_iff o m s f).trans ?_
      simp
    | _ => cases h

theorem State.blitterReady_of_set {s : State} (src : s.bsrcSet = true) (dst : s.bdstSet = true) (w : s.bwSet = true)
    (h : s.bhSet = true) : s.blitterReady = true := by
  simp [State.blitterReady, src, dst, w, h]

/-- Outside the fault cases every E1 instruction completes. -/
theorem exec_completes_of_not_faultCase {i : Instr} {s : State} (h : ∀ f, ¬ FaultCase i s f) : Completes (exec i s) :=
  completes_of_ne (fun f hf => h f ((exec_eq_fault_iff i s f).1 hf)) (exec_ne_refused i s)

/-! ### Edition E2 -/

/-- No E2 instruction is an INT. -/
theorem counterpart_not_interrupt {i : InstrE2} {j : Instr} (h : counterpart i = some j) :
    family j ≠ .interrupt := by
  cases i with
  | halt | cmp | jmp | jmpImm | jmps | jmpsImm | jmpi | jmpiImm => cases h
  | _ => cases h; nofun

theorem execE2_completes_of_no_counterpart {i : InstrE2} (h : counterpart i = none) (s : State) :
    Completes (execE2 i s) := by
  cases i with
  | halt | cmp => exact ⟨_, rfl⟩
  | jmp | jmpImm => exact jump_completes _ _ _
  | jmps _ r => exact jumpSubroutine_completes _ (fun u => u.getReg r) s
  | jmpsImm _ k => exact jumpSubroutine_completes _ (fun u => u.jumpTarget (imm24 k)) s
  | jmpi | jmpiImm => exact interruptJump_completes _ _
  | _ => cases h

theorem execE2_ne_refused (i : InstrE2) (s : State) (r : Refusal) : execE2 i s ≠ .refused r := by
  cases h : counterpart i with
  | none => exact (execE2_completes_of_no_counterpart h s).ne_refused r
  | some j => rw [execE2_of_counterpart h]; exact exec_ne_refused j s r

/-- No division faults, no INT is there to fault, no BLIT finds a register unset. -/
theorem execE2_completes {s : State} (i : InstrE2) (divZero : s.params.divZero = .any)
    (ready : s.blitterReady = true) : Completes (execE2 i s) := by
  cases h : counterpart i with
  | none => exact execE2_completes_of_no_counterpart h s
  | some j =>
    rw [execE2_of_counterpart h]
    refine exec_completes_of_not_faultCase fun f => ?_
    rintro (⟨_, faulting, _⟩ | ⟨_, _, ⟨r, rfl⟩ | ⟨k, rfl⟩⟩ | ⟨_, unset, _⟩)
    · simp [divZero] at faulting
    · exact counterpart_not_interrupt h rfl
    · exact counterpart_not_interrupt h rfl
    · simp [ready] at unset

end Sys2Proof.Machine

/-! PROOFS. What the instructions of one kind have in common, read off the effect of each (40_alu_arithmetic.md R112,
41_alu_general.md R172, 10_state.md R18, R21 to R26). -/

namespace Sys2Proof.Machine

/-- Two results that are the same next state. -/
theorem of_next {P : State → Prop} {result : Result} {t : State} (h : result = .next t)
    (spec : ∃ u, result = .next u ∧ P u) : P t := by
  obtain ⟨u, hu, p⟩ := spec
  cases h.symm.trans hu
  exact p

theorem finishArithmetic_writes {d : Reg} {v : Word} {s t : State} (h : finishArithmetic d v s = .next t) :
    WritesArithmetic d v s t := of_next h (finishArithmetic_spec d v s)

/-- A division that completes writes one value, whichever. -/
theorem divide_writes {q : Word → Word → Option Word} {d : Reg} {a b : Word} {s t : State}
    (h : divide q d a b s = .next t) : ∃ v, WritesArithmetic d v s t := by
  unfold divide at h
  split at h
  · split at h
    · cases h
    · exact ⟨_, finishArithmetic_writes h⟩
  · split at h <;> exact ⟨_, finishArithmetic_writes h⟩

theorem shift_writes {rule : Word → Nat → Option Word} {d : Reg} {n : Nat} {s t : State}
    (h : shift rule d n s = .next t) : ∃ v, WritesRegister d v s t := by
  cases hv : shiftBy rule (s.getReg d) n with
  | some v => exact ⟨v, of_next h (shift_spec rule d n s v hv)⟩
  | none =>
    obtain ⟨v, spec⟩ := shift_any_spec rule d n s hv
    exact ⟨v, of_next h spec⟩

/-- Every arithmetic instruction writes its destination and the open code. -/
theorem exec_arithmetic {i : Instr} {s t : State} (h : exec i s = .next t) (hf : family i = .arithmetic) :
    ∃ d v, destination i = some d ∧ WritesArithmetic d v s t := by
  cases i with
  | addui | addsi | addf | adduiImm | addsiImm | addfImm | subui | subsi | subf | subuiImm | subsiImm | subfImm
  | divf | divfImm | mltui | mltsi | mltf | mltuiImm | mltsiImm | mltfImm =>
    exact ⟨_, _, rfl, finishArithmetic_writes h⟩
  | divui d | divuiImm d =>
    obtain ⟨v, w⟩ := divide_writes (q := divUnsigned) h
    exact ⟨d, v, rfl, w⟩
  | divsi d | divsiImm d =>
    obtain ⟨v, w⟩ := divide_writes (q := divSigned) h
    exact ⟨d, v, rfl, w⟩
  | _ => cases hf

/-- Every compare writes one code. -/
theorem exec_compare {i : Instr} {s t : State} (h : exec i s = .next t) (hf : family i = .compare) :
    ∃ c, WritesCode c s t := by
  cases i with
  | cmpui | cmpsi | cmpf => exact ⟨_, of_next h (finishCompare_spec _ s)⟩
  | _ => cases hf

/-- The general ALU instructions and the loads write their destination and nothing else. -/
theorem exec_general_or_load {i : Instr} {s t : State} (h : exec i s = .next t)
    (hf : family i = .general ∨ family i = .load) : ∃ d v, destination i = some d ∧ WritesRegister d v s t := by
  cases i with
  | mv | and | andImm | or | orImm | xor | xorImm | not | ldr | ldrImm =>
    cases h
    exact ⟨_, _, rfl, writesRegister_writeBack _ _ s⟩
  | asl d | asr d | aslImm d | asrImm d | lsl d | lslImm d | lsr d | lsrImm d =>
    obtain ⟨v, w⟩ := shift_writes h
    exact ⟨d, v, rfl, w⟩
  | _ => rcases hf with hf | hf <;> cases hf

/-! ### The status register and the registers that are written without being named -/

theorem sts_mem_implicitlyWritten (f : Family) :
    Reg.sts ∈ implicitlyWritten f ↔ f ∈ [.arithmetic, .compare, .interrupt, .interruptReturn] := by
  cases f <;> decide

theorem sp_mem_implicitlyWritten (f : Family) : Reg.sp ∈ implicitlyWritten f ↔ f ∈ [.push, .pop] := by
  cases f <;> decide

theorem lr_mem_implicitlyWritten (f : Family) : Reg.lr ∈ implicitlyWritten f ↔ f = .subroutineJump := by
  cases f <;> decide

theorem ihdlr_mem_implicitlyWritten (f : Family) : Reg.ihdlr ∈ implicitlyWritten f ↔ f = .setHandler := by
  cases f <;> decide

/-- A register other than the pc that is neither named nor written by the kind reads as before. -/
theorem exec_getReg {i : Instr} {s t : State} (h : exec i s = .next t) {r : Reg} (hpc : r ≠ Reg.pc)
    (hd : destination i ≠ some r) (hf : r ∉ implicitlyWritten (family i)) : t.getReg r = s.getReg r :=
  exec_registers h r (by simp [mem_writtenRegisters, hpc, hd, hf])

/-- Register 29 shows the whole status register (10_state.md R19). -/
theorem sts_eq_of_getReg_eq {s t : State} (h : t.getReg Reg.sts = s.getReg Reg.sts) : t.sts = s.sts := by
  simpa using congrArg (BitVec.setWidth 6) h

theorem exec_sts {i : Instr} {s t : State} (h : exec i s = .next t) (hd : destination i ≠ some Reg.sts)
    (hf : family i ∉ [.arithmetic, .compare, .interrupt, .interruptReturn]) : t.sts = s.sts :=
  sts_eq_of_getReg_eq (exec_getReg h (by decide) hd (by rwa [sts_mem_implicitlyWritten]))

/-- Of the kinds that write the status register, arithmetic and compare leave the flag (10_state.md R24). -/
theorem exec_intFlag {i : Instr} {s t : State} (h : exec i s = .next t) (hd : destination i ≠ some Reg.sts)
    (hf : family i ∉ [.interrupt, .interruptReturn]) : t.intFlag = s.intFlag := by
  by_cases arithmetic : family i = .arithmetic
  · obtain ⟨d, v, named, w⟩ := exec_arithmetic h arithmetic
    exact w.flag fun isSts => hd (named.trans (congrArg some isSts))
  by_cases compare : family i = .compare
  · obtain ⟨c, w⟩ := exec_compare h compare
    exact w.flag
  · have unwritten : family i ∉ [.arithmetic, .compare, .interrupt, .interruptReturn] := by
      simpa [arithmetic, compare] using hf
    rw [State.intFlag, State.intFlag, exec_sts h hd unwritten]

/-! ### The pc -/

theorem jump_pc {taken : Bool} {target : Word} {s t : State} (h : jump taken target s = .next t)
    (notTaken : taken = false) : t.pc = s.pc + 1 := by
  subst notTaken
  cases h
  rfl

theorem jumpSubroutine_pc {taken : Bool} {target : State → Word} {s t : State}
    (h : jumpSubroutine taken target s = .next t) (notTaken : taken = false) : t.pc = s.pc + 1 := by
  subst notTaken
  cases h
  rfl

theorem pushWord_pc {r : Reg} {s t : State} (h : pushWord r s = .next t) : t.pc = s.pc + 1 := by
  cases h
  exact congrArg (· + 1) (State.setReg_pc s Reg.sp (s.sp - 1))

theorem popWord_pc {d : Reg} {s t : State} (h : popWord d s = .next t) (hd : d ≠ Reg.pc) : t.pc = s.pc + 1 := by
  cases h
  rw [State.retire_pc, if_neg hd, State.setReg_pc, if_neg (by decide), State.setReg_pc, if_neg hd]

theorem blit_pc {op : BitVec 4} {mask : Byte} {s t : State} (h : blit op mask s = .next t) : t.pc = s.pc + 1 := by
  unfold blit at h
  split at h
  · cases h; rfl
  · cases h

/-- The condition of a jump, where the instruction is one. -/
def jumpCondition : Instr → Option Code
  | .jmp c _ | .jmpImm c _ | .jmps c _ | .jmpsImm c _ => some c
  | _ => none

theorem jumpCondition_eq_some_iff (i : Instr) (c : Code) : jumpCondition i = some c ↔
    (∃ r, i = .jmp c r ∨ i = .jmps c r) ∨ ∃ k, i = .jmpImm c k ∨ i = .jmpsImm c k := by
  cases i <;> simp [jumpCondition]

/-- Where nothing writes the pc, it advances (10_state.md R18). -/
theorem exec_pc {i : Instr} {s t : State} (h : exec i s = .next t) (hd : destination i ≠ some Reg.pc)
    (hf : family i ∉ [.interrupt, .interruptReturn])
    (notTaken : ∀ c, jumpCondition i = some c → s.condHolds condMatchE1 c = false) : t.pc = s.pc + 1 := by
  cases kind : family i with
  | arithmetic =>
    obtain ⟨d, v, named, w⟩ := exec_arithmetic h kind
    exact w.pc fun isPc => hd (named.trans (congrArg some isPc))
  | compare =>
    obtain ⟨c, w⟩ := exec_compare h kind
    exact w.pc
  | general | load =>
    obtain ⟨d, v, named, w⟩ := exec_general_or_load h (by simp [kind])
    exact w.pc fun isPc => hd (named.trans (congrArg some isPc))
  | interrupt | interruptReturn => simp [kind] at hf
  | store | push | pop | jump | subroutineJump | setHandler | graphics =>
    cases i with
    | str | strImm => exact (of_next h (store_spec _ _ s)).pc
    | push => exact pushWord_pc h
    | pop => exact popWord_pc h fun isPc => hd (congrArg some isPc)
    | jmp c | jmpImm c => exact jump_pc h (notTaken c rfl)
    | jmps c r => exact jumpSubroutine_pc (target := fun u => u.getReg r) h (notTaken c rfl)
    | jmpsImm c k => exact jumpSubroutine_pc (target := fun u => u.jumpTarget (imm23 k)) h (notTaken c rfl)
    | sih => cases h; exact (writesRegister_writeBack _ _ s).pc (by decide)
    | glod | blitmem | blitdims | blitdimsImm => cases h; rfl
    | blit | blitImm => exact blit_pc h
    | _ => cases kind

end Sys2Proof.Machine

/-! PROOFS. The invariant, the parameters and the refusals of one step (70_reset_and_hazards.md R444). -/

namespace Sys2Proof.Machine

/-- An instruction that keeps the graphics state keeps the invariant with any canonical main memory. -/
theorem KeepsGraphics.inv {s t : State} (keeps : KeepsGraphics s t) (h : s.Inv) (wf : Memory.wf t.mem = true)
    (below : Memory.below (2 ^ 34) t.mem = true) : t.Inv where
  mem_wf := wf
  mem_below := below
  fb_wf := keeps.fb ▸ h.fb_wf
  fb_below := keeps.fb ▸ h.fb_below
  spr_wf := keeps.spr ▸ h.spr_wf
  spr_below := keeps.spr ▸ h.spr_below
  bsrc_unset := keeps.blitter.bsrcSet ▸ keeps.blitter.bsrc ▸ h.bsrc_unset
  bdst_unset := keeps.blitter.bdstSet ▸ keeps.blitter.bdst ▸ h.bdst_unset
  bw_unset := keeps.blitter.bwSet ▸ keeps.blitter.bw ▸ h.bw_unset
  bh_unset := keeps.blitter.bhSet ▸ keeps.blitter.bh ▸ h.bh_unset
  not_halted := keeps.setting.params ▸ keeps.setting.halted ▸ h.not_halted

/-- Every effect of an instruction keeps the invariant. -/
theorem Effect.inv {f : Family} {s t : State} (e : Effect f s t) (h : s.Inv) : t.Inv := by
  cases e with
  | quiet keeps => exact keeps.inv h (keeps.mem ▸ h.mem_wf) (keeps.mem ▸ h.mem_below)
  | stores _ keeps a v mem =>
    exact keeps.inv h (mem ▸ Memory.wf_writeWord _ a v h.mem_wf) (mem ▸ Memory.below_writeWord _ a v h.mem_below)
  | copies _ d a n =>
    exact { h with spr_wf := glodCopy_wf s d a n h.spr_wf, spr_below := glodCopy_below s d a n h.spr_below }
  | places => exact { h with bsrc_unset := nofun, bdst_unset := nofun }
  | sizes => exact { h with bw_unset := nofun, bh_unset := nofun }
  | transfers _ op mask =>
    exact { h with fb_wf := blitRows_wf s op mask _ h.fb_wf, fb_below := blitRows_below s op mask _ h.fb_below }

theorem enter_inv {s : State} (h : s.Inv) (code : BitVec 4) : (s.enter code).Inv := by
  unfold State.enter
  split
  · exact (keepsGraphics_takeInterrupt s code).inv h (Memory.wf_writeWord _ _ _ h.mem_wf)
      (Memory.below_writeWord _ _ _ h.mem_below)
  · exact h

theorem hostMove_inv {s : State} (h : s.Inv) : s.hostMove.Inv := by
  unfold State.hostMove
  split
  · exact h
  next k rest _ =>
    have marked : ({ s with schedule := rest, endPassed := true } : State).Inv := { h with }
    exact enter_inv marked (keyCode k.key)

theorem hostMove_params (s : State) : s.hostMove.params = s.params := by
  unfold State.hostMove State.enter
  split
  · rfl
  · split <;> rfl

/-- What an instruction that completes can have been: one of the machine's edition, and after it one more is counted and the
boundary's mark cleared. -/
theorem runInstruction_next {s t : State} (h : s.runInstruction = .next t) :
    ∃ u, t = { u with steps := u.steps + 1, endPassed := false } ∧
      ((∃ f, Effect f s u) ∨ (s.params.edition = .e2 ∧ u = { s with halted := true })) := by
  unfold State.runInstruction at h
  split at h
  · split at h
    · obtain ⟨u, ran, rfl⟩ := completed_next _ _ h
      exact ⟨u, rfl, .inl ⟨_, exec_effect ran⟩⟩
    · cases h
  next edition =>
    split at h
    · obtain ⟨u, ran, rfl⟩ := completed_next _ _ h
      obtain ⟨_, halted⟩ | ⟨_, effect⟩ := execE2_effect ran
      · exact ⟨u, rfl, .inr ⟨edition, halted⟩⟩
      · exact ⟨u, rfl, .inl effect⟩
    · cases h

theorem runInstruction_inv {s t : State} (hs : s.Inv) (h : s.runInstruction = .next t) : t.Inv := by
  obtain ⟨u, rfl, ⟨f, effect⟩ | ⟨edition, rfl⟩⟩ := runInstruction_next h
  · exact { effect.inv hs with }
  · have notE1 : s.params.edition ≠ .e1 := by simp [edition]
    exact { hs with not_halted := fun e1 => absurd e1 notE1 }

theorem runInstruction_params {s t : State} (h : s.runInstruction = .next t) : t.params = s.params := by
  obtain ⟨u, rfl, ⟨f, effect⟩ | ⟨_, rfl⟩⟩ := runInstruction_next h
  · exact effect.setting.params
  · rfl

theorem completed_ne_refused {result : Result} {r : Refusal} (h : result ≠ .refused r) :
    completed result ≠ .refused r := by
  cases result with
  | next | fault => simp [completed]
  | refused => exact h

theorem runInstruction_ne_refused (s : State) (r : Refusal) : s.runInstruction ≠ .refused r := by
  unfold State.runInstruction
  split <;> split
  · exact completed_ne_refused (exec_ne_refused _ s r)
  · simp
  · exact completed_ne_refused (execE2_ne_refused _ s r)
  · simp

theorem step_inv {s t : State} (hs : s.Inv) (h : step s = .next t) : t.Inv := by
  obtain ⟨_, stays⟩ | ⟨_, _, moves⟩ | ⟨_, _, runs⟩ := step_cases s
  · cases stays.symm.trans h; exact hs
  · cases moves.symm.trans h; exact hostMove_inv hs
  · exact runInstruction_inv hs (runs.symm.trans h)

theorem step_params {s t : State} (h : step s = .next t) : t.params = s.params := by
  obtain ⟨_, stays⟩ | ⟨_, _, moves⟩ | ⟨_, _, runs⟩ := step_cases s
  · cases stays.symm.trans h; rfl
  · cases moves.symm.trans h; exact hostMove_params s
  · exact runInstruction_params (runs.symm.trans h)

theorem step_ne_refused (s : State) (r : Refusal) : step s ≠ .refused r := by
  obtain ⟨_, stays⟩ | ⟨_, _, moves⟩ | ⟨_, _, runs⟩ := step_cases s
  · simp [stays]
  · simp [moves]
  · rw [runs]; exact runInstruction_ne_refused s r

/-- Every memory is empty and nothing is set. -/
theorem reset_inv : State.reset.Inv :=
  ⟨rfl, rfl, rfl, rfl, rfl, rfl, fun _ => rfl, fun _ => rfl, fun _ => rfl, fun _ => rfl, fun _ => rfl⟩

theorem resetE2_inv : State.resetE2.Inv := { reset_inv with not_halted := fun _ => rfl }

end Sys2Proof.Machine

/-! PROOFS. The statements about every instruction and every step. -/

namespace Sys2Proof.Settled

open Sys2Proof.Machine

/-- Settles O12: a step stays, makes a host move or runs an instruction, and each keeps the invariant. -/
theorem stepKeepsInvariant : Obligations.StepKeepsInvariant := fun _ _ hs h => step_inv hs h

/-- Settles O13. -/
theorem resetHasInvariant : Obligations.ResetHasInvariant := ⟨reset_inv, resetE2_inv⟩

/-- Settles O14: the parameters are part of the setting, which every effect keeps. -/
theorem stepKeepsParameters : Obligations.StepKeepsParameters := ⟨fun _ _ => step_params, step_ne_refused⟩

/-- Settles O50, from the effect of each kind and the registers it can write. -/
theorem memoriesAndTheirWriters : Obligations.MemoriesAndTheirWriters := by
  intro i s t h
  refine ⟨(exec_effect h).sameGraphics, fun drawing r hr => ?_, (exec_effect h).sameMemory⟩
  have unnamed : destination i = none := by
    cases i with
    | glod | blitmem | blitdims | blitdimsImm | blit | blitImm => rfl
    | _ => cases drawing
  exact exec_getReg h (by simpa using hr) (by simp [unnamed]) (by simp [drawing, implicitlyWritten])

/-- Settles O51. -/
theorem statusRegisterWriters : Obligations.StatusRegisterWriters :=
  fun _ _ _ h hd => ⟨exec_sts h hd, exec_intFlag h hd⟩

/-- Settles O52: each of the three registers is written by one kind without being named. -/
theorem implicitRegisterWriters : Obligations.ImplicitRegisterWriters := by
  intro i s t h
  refine ⟨fun hd hf => ?_, fun hd hf => ?_, fun hd hf => ?_⟩
  · exact exec_getReg h (r := Reg.sp) (by decide) hd (by rwa [sp_mem_implicitlyWritten])
  · exact exec_getReg h (r := Reg.lr) (by decide) hd (by rwa [lr_mem_implicitlyWritten])
  · exact exec_getReg h (r := Reg.ihdlr) (by decide) hd (by rwa [ihdlr_mem_implicitlyWritten])

/-- Settles O53. -/
theorem pcAdvances : Obligations.PcAdvances :=
  fun i _ _ h hd hf notTaken => exec_pc h hd hf fun c hc => notTaken c ((jumpCondition_eq_some_iff i c).1 hc)

/-- Settles O54. -/
theorem faultsOfInstructions : Obligations.FaultsOfInstructions :=
  fun i s => ⟨exec_ne_refused i s, exec_eq_fault_iff i s⟩

/-- Settles O55: the settings exclude each of the fault cases. -/
theorem everyInstructionCompletes : Obligations.EveryInstructionCompletes := by
  intro i s divZero fetched src dst w h
  have completes : Completes (exec i s) := by
    refine exec_completes_of_not_faultCase fun f => ?_
    rintro (⟨_, faulting, _⟩ | ⟨_, faulting, _⟩ | ⟨_, unset, _⟩)
    · simp [divZero] at faulting
    · simp [fetched] at faulting
    · simp [State.blitterReady_of_set src dst w h] at unset
  obtain ⟨t, ht⟩ := completes
  exact ⟨t, ht, (exec_effect ht).setting⟩

/-- Settles O56: HALT sets the flag, and every other effect keeps the setting. -/
theorem everyE2InstructionCompletes : Obligations.EveryE2InstructionCompletes := by
  intro i s divZero src dst w h
  obtain ⟨t, ht⟩ := execE2_completes i divZero (State.blitterReady_of_set src dst w h)
  refine ⟨t, ht, ?_⟩
  obtain ⟨rfl, rfl⟩ | ⟨notHalt, f, effect⟩ := execE2_effect ht
  · simp
  · simp [effect.setting.params, effect.setting.halted, notHalt]

/-- Settles O57. -/
theorem e2KeepsE1Meanings : Obligations.E2KeepsE1Meanings := fun _ _ s h => execE2_of_counterpart h s

end Sys2Proof.Settled

/-! PROOFS. One step of a running machine: FORMSEL's tag, the decoded instruction, the fault of a refused word, the word that
the host places (70_reset_and_hazards.md R444, 30_encoding.md R92, 60_exceptions.md R420). -/

namespace Sys2Proof.Machine

/-! ### FORMSEL -/

theorem formSel_eq_find? (table : List FormRule) (a w : Word) :
    formSel table a w = (table.find? (formRuleCovers · a w)).map (·.tag) := by
  induction table with
  | nil => rfl
  | cons r rest ih => cases h : formRuleCovers r a w <;> simp [formSel, h, ih]

/-- A rule that does not cover a word fails the cover test. -/
theorem formRuleCovers_eq_false_iff (r : FormRule) (a w : Word) : formRuleCovers r a w = false ↔ ¬ Covers r a w := by
  rw [← formRuleCovers_iff, Bool.not_eq_true]

theorem formSel_eq_some_iff (table : List FormRule) (a w : Word) (tag : FormTag) :
    formSel table a w = some tag ↔ ∃ before r after, table = before ++ r :: after ∧ r.tag = tag ∧ Covers r a w ∧
      ∀ q ∈ before, ¬ Covers q a w := by
  simp only [formSel_eq_find?, Option.map_eq_some_iff, List.find?_eq_some_iff_append, Bool.not_eq_true',
    formRuleCovers_iff, formRuleCovers_eq_false_iff]
  constructor
  · rintro ⟨r, ⟨covers, before, after, split, skipped⟩, named⟩
    exact ⟨before, r, after, split, named, covers, skipped⟩
  · rintro ⟨before, r, after, split, named, covers, skipped⟩
    exact ⟨r, ⟨covers, before, after, split, skipped⟩, named⟩

theorem formSel_eq_none_iff (table : List FormRule) (a w : Word) :
    formSel table a w = none ↔ ∀ r ∈ table, ¬ Covers r a w := by
  simp [formSel_eq_find?, formRuleCovers_eq_false_iff]

/-! ### The instruction of a step -/

theorem step_of_running {s : State} (h : s.running) : step s = s.runInstruction := by
  obtain ⟨notEnded, noMove⟩ := h
  simp [step, notEnded, noMove]

theorem runInstruction_e1 {s : State} (edition : s.params.edition = .e1) {i : Instr}
    (decoded : decode s.fetchTag s.fetchWord = .ok i) : s.runInstruction = completed (exec i s) := by
  simp [State.runInstruction, edition, decoded]

theorem runInstruction_e2 {s : State} (edition : s.params.edition = .e2) {i : InstrE2}
    (decoded : decodeE2 s.fetchTag s.fetchWord = .ok i) : s.runInstruction = completed (execE2 i s) := by
  simp [State.runInstruction, edition, decoded]

theorem runInstruction_e1_error {s : State} (edition : s.params.edition = .e1) {e : DecodeError}
    (refused : decode s.fetchTag s.fetchWord = .error e) : s.runInstruction = .fault (decodeFault s e) := by
  simp [State.runInstruction, edition, refused]

theorem runInstruction_e2_error {s : State} (edition : s.params.edition = .e2) {e : DecodeError}
    (refused : decodeE2 s.fetchTag s.fetchWord = .error e) : s.runInstruction = .fault (decodeFault s e) := by
  simp [State.runInstruction, edition, refused]

/-! ### The word that the host places -/

/-- The four bytes of a word, read as the program file stores them, are the word (20_memory.md R49). -/
theorem decodeBytes_bytesOfWord (tag : Option FormTag) (w : Word) :
    decodeBytes tag (bytesOfWord w) = (decode tag w).map (·, []) := by
  have joined : wordOfBytes (w.extractLsb' 0 8) (w.extractLsb' 8 8) (w.extractLsb' 16 8) (w.extractLsb' 24 8) = w :=
    wordByte_join w
  simp only [bytesOfWord, decodeBytes, joined]
  cases decode tag w <;> rfl

theorem decodeTableWord_eq_some {nbits w : Nat} {i : Instr} (h : decodeTableWord nbits w = some i) :
    decode (some (tagOfWord (BitVec.ofNat 32 (w % 2 ^ nbits)))) (BitVec.ofNat 32 (w % 2 ^ nbits)) = .ok i := by
  simp only [decodeTableWord, decodeBytes_bytesOfWord] at h
  generalize decode _ _ = result at h ⊢
  cases result with
  | error e => cases h
  | ok j => exact congrArg Except.ok (Option.some.inj h)

section
variable (s : State) (w : Word) (tag : FormTag)

/-- END never holds and the schedule is empty. -/
theorem placeWord_running : (s.placeWord w tag).running := by
  simp [State.running, State.placeWord, State.ended, State.endReached, State.satisfies, State.hostMoveDue]

theorem placeWord_fetchWord : (s.placeWord w tag).fetchWord = w := (storesWord_writeWord s.mem s.pc w).1

/-- The rule for the pc is the first of the table. -/
theorem placeWord_fetchTag : (s.placeWord w tag).fetchTag = some tag := by
  simp [State.fetchTag, State.placeWord, formSel, formRuleCovers]

theorem step_placeWord {i : Instr} (decoded : decode (some tag) w = .ok i) :
    step (s.placeWord w tag) = completed (exec i (s.placeWord w tag)) := by
  rw [step_of_running (placeWord_running s w tag)]
  refine runInstruction_e1 rfl ?_
  rwa [placeWord_fetchTag, placeWord_fetchWord]

end

end Sys2Proof.Machine

/-! PROOFS. The end of a run, the host's moves, and HALT (70_reset_and_hazards.md R446, 60_exceptions.md R402 to R405, 49
R330, R331). -/

namespace Sys2Proof.Machine

theorem step_of_ended {s : State} (h : s.ended = true) : step s = .next s := if_pos h

/-- A run that has ended stays where it is. -/
theorem run_of_ended {s : State} (h : s.ended = true) (n : Nat) : Host.Core.run Sys2Proof.core n s = .next s := by
  induction n with
  | zero => rfl
  | succ n ih => exact (run_succ_next n s s (step_of_ended h)).trans ih

theorem State.ended_e1 {s : State} (edition : s.params.edition = .e1) : s.ended = s.endReached := by
  simp [State.ended, edition]

theorem State.ended_e2 {s : State} (edition : s.params.edition = .e2) : s.ended = s.halted := by
  simp [State.ended, edition]

/-- A taken jump to itself is a JMP of either form (43_control.md R223). -/
theorem State.atSelfJump_iff (s : State) : s.atSelfJump = true ↔ ∃ c : Code, s.condHolds condMatchE1 c = true ∧
    ((∃ r : Reg, decode s.fetchTag s.fetchWord = .ok (.jmp c r) ∧ s.getReg r = s.pc) ∨
      ∃ k : BitVec 23, decode s.fetchTag s.fetchWord = .ok (.jmpImm c k) ∧ s.pc + k.signExtend 32 = s.pc) := by
  unfold State.atSelfJump State.jumpTarget imm23
  split
  next c a found => simp [found, and_assoc]
  next c k found => simp [found, and_assoc]
  next notRegister notOffset =>
    simp only [Bool.false_eq_true, false_iff, not_exists, not_and, not_or]
    exact fun c _ => ⟨fun r found => absurd found (notRegister c r), fun k found => absurd found (notOffset c k)⟩

/-- Registers 0 to 25 are the general registers (10_state.md R11). -/
theorem State.getReg_general (s : State) (r : Reg) (h : r.val < 26) : s.getReg r = s.gpr[r.val] := dif_pos h

/-- Register 29 reads as the number that the status register is (10_state.md R19). -/
theorem State.part_sts (s : State) : s.part (.register 29) = s.sts.toNat := by
  have small : s.sts.toNat < 2 ^ 32 := Nat.lt_trans s.sts.isLt (by decide)
  exact (BitVec.toNat_setWidth 32 s.sts).trans (Nat.mod_eq_of_lt small)

theorem State.hostMoveDue_iff (s : State) :
    s.hostMoveDue = true ↔ ∃ k rest, s.schedule = k :: rest ∧ k.atStep ≤ s.steps := by
  unfold State.hostMoveDue
  cases s.schedule <;> simp

/-- The machine without the head of its schedule, at a boundary where END has been evaluated. -/
def State.moved (s : State) (rest : List KeyPress) : State := { s with schedule := rest, endPassed := true }

theorem step_hostMove {s : State} {k : KeyPress} {rest : List KeyPress} (running : s.ended = false)
    (schedule : s.schedule = k :: rest) (due : k.atStep ≤ s.steps) :
    step s = .next ((s.moved rest).enter (keyCode k.key)) := by
  have isDue : s.hostMoveDue = true := (s.hostMoveDue_iff).2 ⟨k, rest, schedule, due⟩
  simp [step, running, isDue, State.hostMove, schedule, State.moved]

/-- END is not evaluated again at a boundary whose mark is set, and `halted` decides in E2. -/
theorem ended_eq_false_of_marked {s t : State} (running : s.ended = false) (params : t.params = s.params)
    (halted : t.halted = s.halted) (marked : t.endPassed = true) : t.ended = false := by
  cases edition : s.params.edition with
  | e1 => simp [State.ended, State.endReached, params, edition, marked]
  | e2 => rw [State.ended_e2 (by rw [params, edition]), halted, ← State.ended_e2 edition, running]

theorem State.enter_of_accepted {s : State} (h : s.interruptAccepted = true) (code : BitVec 4) :
    s.enter code = s.takeInterrupt code := if_pos h

theorem State.enter_of_ignored {s : State} (h : s.interruptAccepted = false) (code : BitVec 4) : s.enter code = s := by
  simp [State.enter, h]

/-- An interrupt is ignored while one is being handled and while no handler is set (60_exceptions.md R402). -/
theorem State.interruptAccepted_eq_false_iff (s : State) :
    s.interruptAccepted = false ↔ s.intFlag = true ∨ s.ihdlr = handlerUnset := by
  rw [← Bool.not_eq_true, State.interruptAccepted_iff]
  cases s.intFlag <;> simp

/-- Type 0 without the operation bit is HALT, whatever the tag (49 R305). -/
theorem decodeE2_halt (tag : Option FormTag) {w : Word} (h : w.extractLsb' 5 3 = 0) : decodeE2 tag w = .ok .halt := by
  have bits : ∀ i < 3, w.getLsbD (5 + i) = false := by
    intro i hi
    have bit := congrArg (·.getLsbD i) h
    simpa [BitVec.getLsbD_extractLsb', hi] using bit
  have type : w.extractLsb' 5 2 = 0 := by
    apply BitVec.eq_of_getLsbD_eq
    intro i hi
    have low : i < 2 := hi
    simp [low, bits i (by omega)]
  rw [decodeE2_of_controlType tag type]
  unfold decodeControlE2
  rw [bits 2 (by decide)]
  rfl

/-- HALT sets its flag and nothing else (49 R331). -/
theorem execE2_halt (s : State) : execE2 .halt s = .next { s with halted := true } := rfl

end Sys2Proof.Machine

/-! PROOFS. The statements about one step, the end of a run and the host's moves. -/

namespace Sys2Proof.Settled

open Sys2Proof.Machine

/-- Settles O7: a running machine runs the decoded instruction, and counts it when it completes. -/
theorem stepRunsDecodedInstruction : Obligations.StepRunsDecodedInstruction := by
  refine fun s running => ⟨fun i edition decoded => ?_, fun i edition decoded => ?_⟩
  · rw [step_of_running running, runInstruction_e1 edition decoded]
    cases exec i s <;> rfl
  · rw [step_of_running running, runInstruction_e2 edition decoded]
    cases execE2 i s <;> rfl

/-- Settles O8: the table as a search for the first rule that covers, and the fault that each refusal of a decoder becomes. -/
theorem stepFaultsOnRefusedWord : Obligations.StepFaultsOnRefusedWord := by
  refine ⟨fun table a w tag => ⟨formSel_eq_some_iff table a w tag, formSel_eq_none_iff table a w⟩, ?_⟩
  rintro s tag w running rfl rfl
  rw [step_of_running running]
  exact ⟨fun edition refused => runInstruction_e1_error edition refused,
    fun edition refused => runInstruction_e1_error edition refused,
    fun edition refused => runInstruction_e2_error edition refused,
    fun edition refused => runInstruction_e2_error edition refused⟩

/-- Settles O9: the placed state runs, fetches the placed word and finds its tag. -/
theorem placedWordRunsNext : Obligations.PlacedWordRunsNext := by
  intro s nbits w i h
  refine (step_placeWord s _ _ (decodeTableWord_eq_some h)).trans ?_
  unfold State.withFetchWord
  cases exec i (s.placeWord _ _) <;> rfl

/-- Settles O10: an ended machine by induction on the steps, the two ends by the edition, each predicate and each part by its
equation. -/
theorem endedMachineStays : Obligations.EndedMachineStays := by
  refine ⟨fun s n h => run_of_ended h n, fun s => State.ended_e2, fun s edition marked => ?_,
    fun s edition unmarked => ?_, fun s a n v p e f => ?_⟩
  · rw [State.ended_e1 edition, State.endReached, marked]
    rfl
  · rw [State.ended_e1 edition, State.endReached, unmarked]
    rfl
  · refine ⟨rfl, ?_, ?_, ?_, ?_, ?_, ?_, ?_, s.atSelfJump_iff, fun r h => congrArg BitVec.toNat (s.getReg_general r h),
      rfl, rfl, rfl, s.part_sts, rfl, rfl, fun _ => rfl, fun _ => rfl, fun _ => rfl, fun _ => rfl, rfl, rfl, rfl, rfl,
      rfl, rfl, rfl, rfl, rfl⟩ <;> simp [State.satisfies]

/-- Settles O11: the due move is the step, and the handler is entered or the state kept as the flag and IHDLR say. -/
theorem hostMoveStep : Obligations.HostMoveStep := by
  refine ⟨by decide, State.hostMoveDue_iff, fun s k rest running schedule due => ⟨fun clear handler => ?_, fun lost => ?_⟩⟩
  · have accepted : (s.moved rest).interruptAccepted = true := (State.interruptAccepted_iff _).2 ⟨handler, clear⟩
    refine ⟨_, step_hostMove running schedule due, ?_⟩
    rw [State.enter_of_accepted accepted]
    exact ⟨rfl, ended_eq_false_of_marked running rfl rfl rfl, entersHandler_takeInterrupt _ _⟩
  · have ignored : (s.moved rest).interruptAccepted = false := (State.interruptAccepted_eq_false_iff _).2 lost
    refine ⟨?_, ended_eq_false_of_marked running rfl rfl rfl⟩
    rw [step_hostMove running schedule due, State.enter_of_ignored ignored]
    rfl

/-- Settles O15, by evaluation of the two reset states. -/
theorem resetValues : Obligations.ResetValues :=
  ⟨by decide, rfl, rfl, by decide, rfl, rfl, rfl, by decide⟩

/-- Settles O60: the step runs HALT, and the run it ends stays. -/
theorem haltIsFinal : Obligations.HaltIsFinal := by
  intro s n running edition word
  have runsHalt : step s = .next { s with halted := true, steps := s.steps + 1, endPassed := false } := by
    rw [step_of_running running, runInstruction_e2 edition (decodeE2_halt _ word), execE2_halt]
    rfl
  rw [run_succ_next n s _ runsHalt]
  exact run_of_ended (by simp [State.ended, edition]) n

end Sys2Proof.Settled

/-! PROOFS. Words of main memory byte by byte, canonical memories, and the image that a launch places (20_memory.md R43, R44,
R53; 70_reset_and_hazards.md R441, R442). -/

namespace Sys2Proof.Machine

/-! ### Words -/

/-- A byte after a word store: place `k` belongs to word `k / 4` (20_memory.md R53). -/
theorem read_writeWord (m : List Host.Cell) (a v : Word) (k : Nat) :
    Memory.read (Memory.writeWord m a v) k = if k / 4 = a.toNat then wordByte v (k % 4) else Memory.read m k := by
  have place : ∀ i < 4, (k = byteAddr a i ↔ k / 4 = a.toNat ∧ k % 4 = i) := by
    intro i hi
    unfold byteAddr
    omega
  unfold Memory.writeWord
  simp only [Memory.read_write, place 0, place 1, place 2, place 3, Nat.reduceLT]
  by_cases word : k / 4 = a.toNat
  · have offset : k % 4 = 0 ∨ k % 4 = 1 ∨ k % 4 = 2 ∨ k % 4 = 3 := by omega
    obtain h | h | h | h := offset <;> simp [word, h]
  · simp [word]

/-- Another word reads as before. -/
theorem readWord_writeWord_ne (m : List Host.Cell) {a b : Word} (v : Word) (h : b ≠ a) :
    Memory.readWord (Memory.writeWord m a v) b = Memory.readWord m b := by
  have other : ∀ i < 4, Memory.read (Memory.writeWord m a v) (byteAddr b i) = Memory.read m (byteAddr b i) := by
    intro i hi
    have ne : byteAddr b i / 4 ≠ a.toNat := fun e => h (BitVec.eq_of_toNat_eq (by unfold byteAddr at e; omega))
    rw [read_writeWord, if_neg ne]
  unfold Memory.readWord
  rw [other 0 (by decide), other 1 (by decide), other 2 (by decide), other 3 (by decide)]

theorem storesWord_memWrite (s : State) (a v : Word) : StoresWord a v s (s.memWrite a v) :=
  storesWord_writeWord s.mem a v

/-! ### Canonical memories -/

/-- An address below every listed one is unlisted. -/
theorem read_of_below_all {m : List Host.Cell} {k : Nat} (h : ∀ c ∈ m, k < c.1) : Memory.read m k = Memory.unlisted := by
  induction m with
  | nil => rfl
  | cons c rest ih =>
    obtain ⟨lt, above⟩ := List.forall_mem_cons.1 h
    exact (if_neg (Nat.ne_of_gt lt)).trans (ih above)

theorem read_head (a : Nat) (v : Byte) (rest : List Host.Cell) : Memory.read ((a, v) :: rest) a = v := if_pos rfl

theorem read_tail {a k : Nat} (v : Byte) (rest : List Host.Cell) (h : a ≠ k) :
    Memory.read ((a, v) :: rest) k = Memory.read rest k := if_neg h

/-- The first address of a canonical memory is not below the first of one that reads the same. -/
theorem not_head_lt_head {a b : Nat} {v w : Byte} {m n : List Host.Cell} (hm : Memory.wf ((a, v) :: m) = true)
    (hn : Memory.wf ((b, w) :: n) = true)
    (same : ∀ k, Memory.read ((a, v) :: m) k = Memory.read ((b, w) :: n) k) : ¬ a < b := by
  obtain ⟨listed, -, -⟩ := (Memory.wf_cons a v m).1 hm
  obtain ⟨-, above, -⟩ := (Memory.wf_cons b w n).1 hn
  intro lt
  have unlisted : Memory.read ((b, w) :: n) a = Memory.unlisted :=
    read_of_below_all (List.forall_mem_cons.2 ⟨lt, fun c hc => Nat.lt_trans lt (above c hc)⟩)
  exact listed (by rw [← unlisted, ← same, read_head])

theorem eq_of_wf_of_read_eq {m n : List Host.Cell} (hm : Memory.wf m = true) (hn : Memory.wf n = true)
    (same : ∀ k, Memory.read m k = Memory.read n k) : m = n := by
  induction m generalizing n with
  | nil =>
    cases n with
    | nil => rfl
    | cons d n =>
      obtain ⟨b, w⟩ := d
      exact absurd (by rw [← read_head b w n, ← same]; rfl) ((Memory.wf_cons b w n).1 hn).1
  | cons c m ih =>
    obtain ⟨a, v⟩ := c
    obtain ⟨listed, above, rest⟩ := (Memory.wf_cons a v m).1 hm
    cases n with
    | nil => exact absurd (by rw [← read_head a v m, same]; rfl) listed
    | cons d n =>
      obtain ⟨b, w⟩ := d
      obtain ⟨-, above', rest'⟩ := (Memory.wf_cons b w n).1 hn
      obtain rfl : a = b := by
        have := not_head_lt_head hm hn same
        have := not_head_lt_head hn hm fun k => (same k).symm
        omega
      obtain rfl : v = w := by rw [← read_head a v m, same, read_head]
      refine congrArg _ (ih rest rest' fun k => ?_)
      by_cases hk : a = k
      · subst hk
        rw [read_of_below_all above, read_of_below_all above']
      · rw [← read_tail v m hk, same, read_tail v n hk]

/-! ### The image -/

/-- The bytes of a word of the program file, the first the least significant (20_memory.md R49). -/
theorem wordByte_wordOfBytes (b0 b1 b2 b3 : Byte) (rest : List Byte) {i : Nat} (h : i < 4) :
    wordByte (wordOfBytes b0 b1 b2 b3) i = (b0 :: b1 :: b2 :: b3 :: rest).getD i 0 := by
  apply BitVec.eq_of_getLsbD_eq
  intro j hj
  unfold wordByte wordOfBytes
  simp only [BitVec.getLsbD_extractLsb', BitVec.getLsbD_append, hj, decide_true, Bool.true_and]
  interval_cases i
  all_goals
    simp (disch := omega) only [if_pos, if_neg, List.getD_cons_zero, List.getD_cons_succ]
    congr 1
    omega

/-- One to three bytes are left over. -/
theorem wordsOfFile_of_leftOver {file : List Byte} (notEmpty : file = [] → False)
    (notFour : ∀ b0 b1 b2 b3 rest, file = b0 :: b1 :: b2 :: b3 :: rest → False) :
    wordsOfFile file = none ∧ 0 < file.length ∧ file.length < 4 := by
  rcases file with _ | ⟨b0, _ | ⟨b1, _ | ⟨b2, _ | ⟨b3, rest⟩⟩⟩⟩
  · exact absurd rfl notEmpty
  · simp [wordsOfFile]
  · simp [wordsOfFile]
  · simp [wordsOfFile]
  · exact absurd rfl (notFour b0 b1 b2 b3 rest)

theorem wordsOfFile_eq_none_iff (file : List Byte) : wordsOfFile file = none ↔ file.length % 4 ≠ 0 := by
  induction file using wordsOfFile.induct with
  | case1 => simp [wordsOfFile]
  | case2 b0 b1 b2 b3 rest ih =>
    simp only [wordsOfFile, Option.map_eq_none_iff, ih, List.length_cons]
    omega
  | case3 file notEmpty notFour =>
    obtain ⟨refused, positive, short⟩ := wordsOfFile_of_leftOver notEmpty notFour
    exact iff_of_true refused (by omega)

/-- A byte of main memory after the words of a file have been stored from `a` on, where they fit. -/
theorem read_loadWords (file : List Byte) {words : List Word} (h : wordsOfFile file = some words)
    (m : List Host.Cell) (a : Word) (fits : 4 * a.toNat + file.length ≤ 2 ^ 34) (k : Nat) :
    Memory.read (loadWords m a words) k =
      if 4 * a.toNat ≤ k ∧ k < 4 * a.toNat + file.length then file.getD (k - 4 * a.toNat) 0 else Memory.read m k := by
  induction file using wordsOfFile.induct generalizing words m a with
  | case1 =>
    obtain rfl : [] = words := Option.some.inj h
    have none : ¬ (4 * a.toNat ≤ k ∧ k < 4 * a.toNat + ([] : List Byte).length) := by simp
    rw [if_neg none]
    rfl
  | case2 b0 b1 b2 b3 rest ih =>
    obtain ⟨tail, htail, rfl⟩ := Option.map_eq_some_iff.1 h
    simp only [List.length_cons] at fits ⊢
    have next : (a + 1).toNat = (a.toNat + 1) % 2 ^ 32 := BitVec.toNat_add a 1
    refine (ih htail (Memory.writeWord m a (wordOfBytes b0 b1 b2 b3)) (a + 1) (by omega)).trans ?_
    rw [read_writeWord]
    by_cases word : k / 4 = a.toNat
    · have offset : k - 4 * a.toNat = k % 4 := by omega
      rw [if_neg (by omega), if_pos word, if_pos (by omega), offset, wordByte_wordOfBytes _ _ _ _ rest (by omega)]
    · by_cases later : 4 * (a.toNat + 1) ≤ k ∧ k < 4 * (a.toNat + 1) + rest.length
      · have here : k - 4 * a.toNat = k - 4 * (a + 1).toNat + 4 := by omega
        rw [if_pos (by omega), if_pos (by omega), here]
        rfl
      · rw [if_neg (by omega), if_neg word, if_neg (by omega)]
  | case3 file notEmpty notFour => simp [wordsOfFile_of_leftOver notEmpty notFour] at h

theorem wf_loadWords {m : List Host.Cell} (h : Memory.wf m = true) (a : Word) (words : List Word) :
    Memory.wf (loadWords m a words) = true := by
  induction words generalizing m a with
  | nil => exact h
  | cons w rest ih => exact ih (Memory.wf_writeWord m a w h) (a + 1)

theorem below_loadWords {m : List Host.Cell} (h : Memory.below (2 ^ 34) m = true) (a : Word) (words : List Word) :
    Memory.below (2 ^ 34) (loadWords m a words) = true := by
  induction words generalizing m a with
  | nil => exact h
  | cons w rest ih => exact ih (Memory.below_writeWord m a w h) (a + 1)

theorem imageWords_eq_none_iff (file : List Byte) :
    imageWords file = none ↔ ¬ (file.length % 4 = 0 ∧ file.length ≤ 2 ^ 34) := by
  unfold imageWords
  split
  next small => rw [wordsOfFile_eq_none_iff]; omega
  next large => exact iff_of_true rfl fun fits => large fits.2

/-- A launch succeeds with the words of a file that fits. -/
theorem launch_eq_some {file : List Byte} {p : Params} {init : InitialContents} {moves : List KeyPress} {s : State}
    (h : launch file p init moves = some s) :
    ∃ words, wordsOfFile file = some words ∧ file.length ≤ 2 ^ 34 ∧
      s = { resetOf p.edition with
        mem := loadWords (Memory.fill (2 ^ 34) init.mem) 0 words
        fb := Memory.fill (2 ^ 16) init.fb
        spr := Memory.fill (2 ^ 12) init.spr
        params := p
        schedule := moves } := by
  obtain ⟨words, image, rfl⟩ := Option.map_eq_some_iff.1 h
  unfold imageWords at image
  split at image
  next small => exact ⟨words, image, small, rfl⟩
  · cases image

theorem resetOf_eq (e : Edition) : resetOf e = if e = .e1 then State.reset else State.resetE2 := by
  cases e <;> rfl

theorem resetOf_inv (e : Edition) : (resetOf e).Inv := by
  cases e with
  | e1 => exact reset_inv
  | e2 => exact resetE2_inv

theorem resetOf_halted (e : Edition) : (resetOf e).halted = false := by cases e <;> rfl

theorem launch_inv {file : List Byte} {p : Params} {init : InitialContents} {moves : List KeyPress} {s : State}
    (h : launch file p init moves = some s) : s.Inv := by
  obtain ⟨words, -, -, rfl⟩ := launch_eq_some h
  exact { resetOf_inv p.edition with
    mem_wf := wf_loadWords (Memory.wf_fill _ _) 0 words
    mem_below := below_loadWords (Memory.below_fill _ _) 0 words
    fb_wf := Memory.wf_fill _ _
    fb_below := Memory.below_fill _ _
    spr_wf := Memory.wf_fill _ _
    spr_below := Memory.below_fill _ _
    not_halted := fun _ => resetOf_halted p.edition }

/-- The image from address 0 on, and MEM_INIT after it. -/
theorem launch_mem {file : List Byte} {p : Params} {init : InitialContents} {moves : List KeyPress} {s : State}
    (h : launch file p init moves = some s) (k : Nat) : Memory.read s.mem k =
      if k < file.length then file.getD k 0 else if k < 2 ^ 34 then Memory.read init.mem k else 0 := by
  obtain ⟨words, image, small, rfl⟩ := launch_eq_some h
  refine (read_loadWords file image _ 0 (by simpa using small) k).trans ?_
  simp [Memory.read_fill, Memory.unlisted]

end Sys2Proof.Machine

/-! PROOFS. The statements about main memory and about a launch. -/

namespace Sys2Proof.Settled

open Sys2Proof.Machine

/-- Settles O17. -/
theorem wordReadAfterWrite : Obligations.WordReadAfterWrite :=
  fun s a v => ⟨storesWord_memWrite s a v, fun _ h => readWord_writeWord_ne s.mem v h⟩

/-- Settles O18, by induction on both lists: the first addresses agree, because an address below every listed one is
unlisted. -/
theorem canonicalMemoriesAgree : Obligations.CanonicalMemoriesAgree := fun _ _ => eq_of_wf_of_read_eq

/-- Settles O16: the state of a launch is the edition's reset state with three filled memories and the image over the first. -/
theorem launchPlacesImage : Obligations.LaunchPlacesImage := by
  refine ⟨fun file p init moves s h => ?_, fun file p init moves => ?_⟩
  · refine ⟨launch_inv h, ?_⟩
    have mem := launch_mem h
    obtain ⟨words, -, -, rfl⟩ := launch_eq_some h
    rw [← resetOf_eq]
    refine ⟨rfl, rfl, ?_, ?_, resetOf_halted p.edition, ⟨rfl, rfl, rfl, rfl, rfl, rfl, rfl, rfl⟩, fun _ _ => rfl,
      fun k => ⟨mem k, Memory.read_fill _ _ k, Memory.read_fill _ _ k⟩⟩
    · cases p.edition <;> rfl
    · cases p.edition <;> rfl
  · rw [launch, Option.map_eq_none_iff]
    exact imageWords_eq_none_iff file

end Sys2Proof.Settled

/-! PROOFS. Integer arithmetic: the exact results narrowed to 32 bits, and the quotients (40_alu_arithmetic.md R113). -/

namespace Sys2Proof.Machine

/-! ### The low 32 bits of an exact result -/

theorem addUnsigned_eq (a b : Word) : addUnsigned a b = a + b := by
  simp [addUnsigned, BitVec.ofNat_add]

theorem addSigned_eq (a b : Word) : addSigned a b = a + b := by
  simp [addSigned, BitVec.ofInt_add]

theorem subUnsigned_eq (a b : Word) : subUnsigned a b = a - b := by
  simp [subUnsigned, Int.sub_eq_add_neg, BitVec.ofInt_add, BitVec.ofInt_neg, BitVec.sub_eq_add_neg]

theorem subSigned_eq (a b : Word) : subSigned a b = a - b := by
  simp [subSigned, Int.sub_eq_add_neg, BitVec.ofInt_add, BitVec.ofInt_neg, BitVec.sub_eq_add_neg]

theorem mulUnsigned_eq (a b : Word) : mulUnsigned a b = a * b := by
  simp [mulUnsigned, BitVec.ofNat_mul]

theorem mulSigned_eq (a b : Word) : mulSigned a b = a * b := by
  simp [mulSigned, BitVec.ofInt_mul]

/-- An arithmetic instruction whose narrowed result is a known word. -/
theorem finishArithmetic_of_eq {v r : Word} (h : v = r) (d : Reg) (s : State) :
    ∃ t, finishArithmetic d v s = .next t ∧ WritesArithmetic d r s t := h ▸ finishArithmetic_spec d v s

/-! ### Quotients -/

theorem divUnsigned_eq (a b : Word) : divUnsigned a b = some (a / b) := by
  have small : a.toNat / b.toNat < 2 ^ 32 := Nat.lt_of_le_of_lt (Nat.div_le_self _ _) a.isLt
  refine congrArg some (BitVec.eq_of_toNat_eq ?_)
  rw [BitVec.toNat_ofNat, BitVec.toNat_udiv, Nat.mod_eq_of_lt small]

/-- The truncated quotient fits but for -2^31 / -1. -/
theorem divSigned_toInt {a b v : Word} (h : divSigned a b = some v) : v.toInt = a.toInt.tdiv b.toInt := by
  unfold divSigned at h
  split at h
  · cases h
  next fits =>
    obtain rfl := Option.some.inj h
    have quotient : (a.sdiv b).toInt = a.toInt.tdiv b.toInt :=
      BitVec.toInt_sdiv_of_ne_or_ne a b (Decidable.not_and_iff_or_not.1 fits)
    rw [← quotient, BitVec.ofInt_toInt]

theorem divSigned_eq_none_iff (a b : Word) : divSigned a b = none ↔ a = 0x80000000 ∧ b = 0xFFFFFFFF := by
  unfold divSigned
  split
  next overflows => exact iff_of_true rfl overflows
  next fits => exact iff_of_false (by simp) fits

/-- A signed division completes, with the truncated quotient where that fits (R113). -/
theorem divide_divSigned_spec (d : Reg) (a b : Word) (s : State) (hb : b ≠ 0) :
    ∃ v t, divide divSigned d a b s = .next t ∧ WritesArithmetic d v s t ∧
      (¬ (a = 0x80000000 ∧ b = 0xFFFFFFFF) → v.toInt = a.toInt.tdiv b.toInt) := by
  cases hq : divSigned a b with
  | some v =>
    obtain ⟨t, next, writes⟩ := divide_spec divSigned d a b v s hb hq
    exact ⟨v, t, next, writes, fun _ => divSigned_toInt hq⟩
  | none =>
    obtain ⟨v, t, next, writes⟩ := divide_any_spec divSigned d a b s hb hq
    exact ⟨v, t, next, writes, fun fits => absurd ((divSigned_eq_none_iff a b).1 hq) fits⟩

theorem divide_divUnsigned_spec (d : Reg) (a b : Word) (s : State) (hb : b ≠ 0) :
    ∃ t, divide divUnsigned d a b s = .next t ∧ WritesArithmetic d (a / b) s t :=
  divide_spec divUnsigned d a b (a / b) s hb (divUnsigned_eq a b)

theorem imm9_ne_zero {k : BitVec 9} (h : k ≠ 0) : imm9 k ≠ 0 := fun e => h ((imm9_eq_zero_iff k).1 e)

theorem imm9_toInt (k : BitVec 9) : (imm9 k).toInt = k.toInt := BitVec.toInt_signExtend_of_le (by decide)

/-- The immediate -1. -/
theorem imm9_eq_minus_one_iff (k : BitVec 9) : imm9 k = 0xFFFFFFFF ↔ k = 0x1FF := by
  revert k
  decide

/-! ### The float instructions -/

theorem fIsNaN_drawnNaN (n : Nat) : fIsNaN (drawnNaN n) = true := by
  have field : (drawnNaN n).extractLsb' 23 8 = 255#8 :=
    (BitVec.extractLsb'_append_eq_of_le (Nat.le_refl 23)).trans BitVec.extractLsb'_append_eq_right
  have exponent : fExp (drawnNaN n) = 255 := congrArg BitVec.toNat field
  have fraction : fFrac (drawnNaN n) = (Config.anyNaNFraction n).val + 1 := by
    have small : (Config.anyNaNFraction n).val + 1 < 2 ^ 23 := by omega
    exact (congrArg BitVec.toNat BitVec.extractLsb'_append_eq_right).trans (Nat.mod_eq_of_lt small)
  simp [fIsNaN, exponent, fraction]

/-- What a float instruction writes: the operation's value, or some NaN where IEEE 754 gives one (R114). -/
theorem floatArithmetic_spec (op : FloatOp) (d : Reg) (a b : Word) (s : State) :
    ∃ v t, floatArithmetic op d a b s = .next t ∧ WritesArithmetic d v s t ∧
      (s.params.floatUnit = .ieee →
        (∀ r, floatIeee op a b = some r → v = r) ∧ (floatIeee op a b = none → fIsNaN v = true)) := by
  obtain ⟨t, next, writes⟩ := finishArithmetic_spec d (s.floatResult op a b) s
  refine ⟨_, t, next, writes, fun ieee => ?_⟩
  unfold State.floatResult
  rw [ieee]
  cases floatIeee op a b with
  | some v => exact ⟨fun r hr => Option.some.inj hr, nofun⟩
  | none => exact ⟨nofun, fun _ => fIsNaN_drawnNaN s.draws⟩

theorem floatOperand_eq (s : State) (k : BitVec 9) :
    s.floatOperand k = if s.params.floatImm = .bits then k.signExtend 32 else fOfInt k.toInt := by
  unfold State.floatOperand
  cases s.params.floatImm <;> rfl

end Sys2Proof.Machine

/-! PROOFS. Shifts (41_alu_general.md R155 to R163): the value of each by 0 to 31 as a number. -/

namespace Sys2Proof.Machine

/-- A shift completes with a register write, of the shifted value where that is defined (R155). -/
theorem shift_writes_value (rule : Word → Nat → Option Word) (d : Reg) (n : Nat) (s : State) :
    ∃ r t, shift rule d n s = .next t ∧ WritesRegister d r s t ∧
      ∀ v, shiftBy rule (s.getReg d) n = some v → r = v := by
  cases hv : shiftBy rule (s.getReg d) n with
  | some v =>
    obtain ⟨t, next, writes⟩ := shift_spec rule d n s v hv
    exact ⟨v, t, next, writes, fun u hu => Option.some.inj hu⟩
  | none =>
    obtain ⟨r, t, next, writes⟩ := shift_any_spec rule d n s hv
    exact ⟨r, t, next, writes, nofun⟩

/-- Below 32 a rule that leaves the value at amount 0 decides. -/
theorem shiftBy_eq {rule : Word → Nat → Option Word} {v : Word} {n : Nat} (zero : rule v 0 = some v) (h : n < 32) :
    shiftBy rule v n = rule v n := by
  unfold shiftBy
  split
  next isZero => rw [isZero, zero]
  next => exact if_neg (by omega)

theorem shift_lsl_spec (d : Reg) (n : Nat) (s : State) :
    ∃ r t, shift shiftLsl d n s = .next t ∧ WritesRegister d r s t ∧
      (n < 32 → r.toNat = (s.getReg d).toNat * 2 ^ n % 2 ^ 32) := by
  obtain ⟨r, t, next, writes, value⟩ := shift_writes_value shiftLsl d n s
  refine ⟨r, t, next, writes, fun h => ?_⟩
  rw [value _ (shiftBy_eq (by simp [shiftLsl]) h), BitVec.toNat_shiftLeft, Nat.shiftLeft_eq]

theorem shift_lsr_spec (d : Reg) (n : Nat) (s : State) :
    ∃ r t, shift shiftLsr d n s = .next t ∧ WritesRegister d r s t ∧ (n < 32 → r.toNat = (s.getReg d).toNat / 2 ^ n) := by
  obtain ⟨r, t, next, writes, value⟩ := shift_writes_value shiftLsr d n s
  refine ⟨r, t, next, writes, fun h => ?_⟩
  rw [value _ (shiftBy_eq (by simp [shiftLsr]) h), BitVec.toNat_ushiftRight, Nat.shiftRight_eq_div_pow]

theorem shift_asr_spec (d : Reg) (n : Nat) (s : State) :
    ∃ r t, shift shiftAsr d n s = .next t ∧ WritesRegister d r s t ∧ (n < 32 → r.toInt = (s.getReg d).toInt / 2 ^ n) := by
  obtain ⟨r, t, next, writes, value⟩ := shift_writes_value shiftAsr d n s
  refine ⟨r, t, next, writes, fun h => ?_⟩
  rw [value _ (shiftBy_eq (by simp [shiftAsr]) h), BitVec.toInt_sshiftRight, Int.shiftRight_eq_div_pow]
  rfl

/-! ### The arithmetic left shift -/

/-- A value below 2^k has no bit from k on. -/
theorem getLsbD_of_toNat_lt {v : Word} {k i : Nat} (h : v.toNat < 2 ^ k) (hi : k ≤ i) : v.getLsbD i = false :=
  Nat.testBit_lt_two_pow (Nat.lt_of_lt_of_le h (Nat.pow_le_pow_right (by decide) hi))

/-- A signed number of `k + 1` bits repeats its sign from bit k on. -/
theorem getLsbD_eq_sign {v : Word} {k i : Nat} (hk : k ≤ 31) (low : -(2 ^ k : Int) ≤ v.toInt) (high : v.toInt < 2 ^ k)
    (hi : k ≤ i) (hi' : i ≤ 31) : v.getLsbD i = v.getLsbD 31 := by
  have toInt := v.toInt_eq_toNat_cond
  split at toInt
  · have small : v.toNat < 2 ^ k := by zify; omega
    rw [getLsbD_of_toNat_lt small hi, getLsbD_of_toNat_lt small hk]
  · have small : (~~~v).toNat < 2 ^ k := by
      rw [BitVec.toNat_not]
      zify
      omega
    have bit : ∀ j, k ≤ j → j < 32 → v.getLsbD j = true := by
      intro j hj hj'
      have := getLsbD_of_toNat_lt small hj
      simpa [hj'] using this
    rw [bit i hi (by omega), bit 31 hk (by decide)]

/-- Where the product fits, ASL's rule for 0 to 31 gives it (R156). -/
theorem shiftAsl_eq {v : Word} {n : Nat} (hn : n < 32) (low : -(2 ^ 31 : Int) ≤ v.toInt * 2 ^ n)
    (high : v.toInt * 2 ^ n < 2 ^ 31) : shiftAsl v n = some (BitVec.ofInt 32 (v.toInt * 2 ^ n)) := by
  have split : (2 : Int) ^ 31 = 2 ^ (31 - n) * 2 ^ n := by rw [← pow_add, Nat.sub_add_cancel (by omega)]
  have lower : -(2 ^ (31 - n) : Int) ≤ v.toInt :=
    le_of_mul_le_mul_right (by rw [neg_mul, ← split]; exact low) (by positivity : (0 : Int) < 2 ^ n)
  have upper : v.toInt < 2 ^ (31 - n) :=
    lt_of_mul_lt_mul_right (by rw [← split]; exact high) (by positivity : (0 : Int) ≤ 2 ^ n)
  have equalBits : (List.range (n + 1)).all (fun i => v.getLsbD (31 - i) == v.getLsbD 31) = true := by
    rw [List.all_eq_true]
    intro i hi
    have small : i < n + 1 := List.mem_range.1 hi
    exact beq_iff_eq.2 (getLsbD_eq_sign (by omega) lower upper (by omega) (by omega))
  have product : v <<< n = BitVec.ofInt 32 (v.toInt * 2 ^ n) := by
    have power : BitVec.ofInt 32 (2 ^ n) = BitVec.twoPow 32 n := by
      rw [show (2 ^ n : Int) = ((2 ^ n : Nat) : Int) by push_cast; rfl, BitVec.ofInt_natCast]
      exact BitVec.eq_of_toNat_eq (by rw [BitVec.toNat_ofNat, BitVec.toNat_twoPow])
    rw [BitVec.ofInt_mul, BitVec.ofInt_toInt, power, BitVec.shiftLeft_eq_mul_twoPow]
  rw [shiftAsl, if_pos equalBits, product]

theorem shift_asl_spec (d : Reg) (n : Nat) (s : State) :
    ∃ r t, shift shiftAsl d n s = .next t ∧ WritesRegister d r s t ∧
      (n < 32 → -(2 ^ 31 : Int) ≤ (s.getReg d).toInt * 2 ^ n → (s.getReg d).toInt * 2 ^ n < 2 ^ 31 →
        r.toInt = (s.getReg d).toInt * 2 ^ n) := by
  obtain ⟨r, t, next, writes, value⟩ := shift_writes_value shiftAsl d n s
  refine ⟨r, t, next, writes, fun h low high => ?_⟩
  rw [value _ ((shiftBy_eq (by simp [shiftAsl]) h).trans (shiftAsl_eq h low high))]
  exact BitVec.toInt_ofInt_eq_self (by decide) low high

end Sys2Proof.Machine

/-! PROOFS. The integer compares (41_alu_general.md R152, R153, R172). -/

namespace Sys2Proof

section
variable {w : Word}

theorem decodeAlu_cmpui (op : w.extractLsb' 7 6 = 26) :
    decodeAlu w = .ok (.cmpui (regField w 13) (regField w 18)) := by
  simp [decodeAlu, op]

theorem decodeAlu_cmpsi (op : w.extractLsb' 7 6 = 27) :
    decodeAlu w = .ok (.cmpsi (regField w 13) (regField w 18)) := by
  simp [decodeAlu, op]

end

end Sys2Proof

namespace Sys2Proof.Machine

/-- The code of the unsigned order (R152). -/
theorem compareCode_toNat (a b : Word) :
    compareCode a.toNat b.toNat = if a = b then 1 else if b.ult a then 2 else 3 := by
  simp [compareCode, BitVec.ult, ← BitVec.toNat_inj]

/-- The code of the signed order (R153). -/
theorem compareCode_toInt (a b : Word) :
    compareCode a.toInt b.toInt = if a = b then 1 else if b.slt a then 2 else 3 := by
  simp [compareCode, BitVec.slt, ← BitVec.toInt_inj]

/-- The code of the unsigned order in E2's numbers (49 R327). -/
theorem compareCodeE2_toNat (a b : Word) :
    compareCodeE2 a.toNat b.toNat = if a = b then 2 else if b.ult a then 3 else 4 := by
  simp [compareCodeE2, BitVec.ult, ← BitVec.toNat_inj]

end Sys2Proof.Machine

/-! PROOFS. The statements about arithmetic, shifts and compares. -/

namespace Sys2Proof.Settled

open Sys2Proof.Machine

/-- Settles O19: each exact result, narrowed, is the result on words. -/
theorem integerAddSubMultiply : Obligations.IntegerAddSubMultiply := by
  intro d a b k s
  exact ⟨finishArithmetic_of_eq (addUnsigned_eq (s.getReg a) (s.getReg b)) d s,
    finishArithmetic_of_eq (addSigned_eq (s.getReg a) (s.getReg b)) d s,
    finishArithmetic_of_eq (addUnsigned_eq (s.getReg a) (imm9 k)) d s,
    finishArithmetic_of_eq (addSigned_eq (s.getReg a) (imm9 k)) d s,
    finishArithmetic_of_eq (subUnsigned_eq (s.getReg a) (s.getReg b)) d s,
    finishArithmetic_of_eq (subSigned_eq (s.getReg a) (s.getReg b)) d s,
    finishArithmetic_of_eq (subUnsigned_eq (s.getReg a) (imm9 k)) d s,
    finishArithmetic_of_eq (subSigned_eq (s.getReg a) (imm9 k)) d s,
    finishArithmetic_of_eq (mulUnsigned_eq (s.getReg a) (s.getReg b)) d s,
    finishArithmetic_of_eq (mulSigned_eq (s.getReg a) (s.getReg b)) d s,
    finishArithmetic_of_eq (mulUnsigned_eq (s.getReg a) (imm9 k)) d s,
    finishArithmetic_of_eq (mulSigned_eq (s.getReg a) (imm9 k)) d s⟩

/-- Settles O20. -/
theorem integerDivision : Obligations.IntegerDivision := by
  refine fun d a b k s => ⟨fun hb => ?_, fun hk => ?_, fun hb => ?_, fun hk => ?_⟩
  · exact divide_divUnsigned_spec d (s.getReg a) (s.getReg b) s hb
  · exact divide_divUnsigned_spec d (s.getReg a) (imm9 k) s (imm9_ne_zero hk)
  · exact divide_divSigned_spec d (s.getReg a) (s.getReg b) s hb
  · rw [← imm9_eq_minus_one_iff, ← imm9_toInt]
    exact divide_divSigned_spec d (s.getReg a) (imm9 k) s (imm9_ne_zero hk)

/-- Settles O21: the four forms divide by a zero, the register's or the immediate's. -/
theorem divisionByZero : Obligations.DivisionByZero := by
  intro d a b s p form zero
  simp only [List.mem_cons, List.not_mem_nil, or_false] at form
  obtain rfl | rfl | rfl | rfl := form
  · have spec := divide_zero_spec divUnsigned d (s.getReg a) s
    rwa [← show s.getReg b = 0 from zero] at spec
  · have spec := divide_zero_spec divSigned d (s.getReg a) s
    rwa [← show s.getReg b = 0 from zero] at spec
  · exact divide_zero_spec divUnsigned d (s.getReg a) s
  · exact divide_zero_spec divSigned d (s.getReg a) s

/-- Settles O22: each form is the float operation on its operands. -/
theorem floatArithmetic : Obligations.FloatArithmetic := by
  intro d a b k s y p form
  have immediate : s.floatOperand k = y := floatOperand_eq s k
  simp only [← immediate, List.mem_cons, List.not_mem_nil, or_false] at form
  obtain rfl | rfl | rfl | rfl | rfl | rfl | rfl | rfl := form
  · exact floatArithmetic_spec .add d (s.getReg a) (s.getReg b) s
  · exact floatArithmetic_spec .add d (s.getReg a) (s.floatOperand k) s
  · exact floatArithmetic_spec .sub d (s.getReg a) (s.getReg b) s
  · exact floatArithmetic_spec .sub d (s.getReg a) (s.floatOperand k) s
  · exact floatArithmetic_spec .div d (s.getReg a) (s.getReg b) s
  · exact floatArithmetic_spec .div d (s.getReg a) (s.floatOperand k) s
  · exact floatArithmetic_spec .mul d (s.getReg a) (s.getReg b) s
  · exact floatArithmetic_spec .mul d (s.getReg a) (s.floatOperand k) s

/-- Settles O28: both forms of each shift are one operation, of the amount in the register or in the immediate. -/
theorem shifts : Obligations.Shifts := by
  intro d a k s p form
  obtain rfl | rfl := List.mem_pair.1 form
  · exact ⟨shift_lsl_spec d (s.getReg a).toNat s, shift_lsr_spec d (s.getReg a).toNat s,
      shift_asr_spec d (s.getReg a).toNat s⟩
  · exact ⟨shift_lsl_spec d (imm14 k).toNat s, shift_lsr_spec d (imm14 k).toNat s, shift_asr_spec d (imm14 k).toNat s⟩

/-- Settles O29. -/
theorem arithmeticLeftShift : Obligations.ArithmeticLeftShift := by
  intro d a k s p form
  obtain rfl | rfl := List.mem_pair.1 form
  · exact shift_asl_spec d (s.getReg a).toNat s
  · exact shift_asl_spec d (imm14 k).toNat s

/-- Settles O30: the two words through the ALU decoder, the spec's example encodings by evaluation, and each effect as the
code of one order. -/
theorem integerCompare : Obligations.IntegerCompare := by
  refine ⟨fun tag w type => ?decoding, by decide, by decide, fun a b s => ⟨?unsigned, ?signed⟩⟩
  case decoding =>
    rw [decode_of_aluType tag type]
    exact ⟨decodeAlu_cmpui, decodeAlu_cmpsi⟩
  case unsigned =>
    rw [← compareCode_toNat]
    exact finishCompare_spec _ s
  case signed =>
    rw [← compareCode_toInt]
    exact finishCompare_spec _ s

end Sys2Proof.Settled

/-! PROOFS. PUSH and POP (42_memory_instructions.md R196, R197). -/

namespace Sys2Proof.Machine

theorem getReg_retire_self (s : State) (d : Reg) : (s.retire d).getReg d = s.getReg d := by
  by_cases hd : d = Reg.pc
  · rw [State.retire, if_pos hd]
  · exact State.getReg_retire s d d hd

/-- A register as PUSH reads it, after SP is lowered. -/
theorem getReg_setReg_sp (s : State) (r : Reg) (v : Word) :
    (s.setReg Reg.sp v).getReg r = if r = Reg.sp then v else s.getReg r := by
  split
  next h => subst h; rfl
  next h => exact State.getReg_setReg_ne s Reg.sp r v h

/-- PUSH: the store at the lowered SP. -/
theorem pushWord_spec (r : Reg) (s : State) : ∃ t, pushWord r s = .next t ∧ t.sp = s.sp - 1 ∧
    WritesWord [Reg.sp] (s.sp - 1) (if r = Reg.sp then s.sp - 1 else s.getReg r) s t := by
  refine ⟨_, rfl, rfl, ?_⟩
  rw [← getReg_setReg_sp]
  exact {
    stored := storesWord_writeWord s.mem (s.sp - 1) _
    pc := pushWord_pc (r := r) rfl
    registers := pushWord_registers (r := r) rfl
    graphics := (((keepsMemories_setReg s Reg.sp (s.sp - 1)).toKeepsGraphics.trans
      (keepsGraphics_memWrite _ _ _)).trans (keepsMemories_advance _).toKeepsGraphics).sameGraphics }

/-- POP: the load, then the raised SP, which is the loaded one where SP is the destination. -/
theorem popWord_spec (d : Reg) (s : State) : ∃ t, popWord d s = .next t ∧
    (d ≠ Reg.sp → t.getReg d = heldBy d (s.memRead s.sp) ∧ t.sp = s.sp + 1) ∧
    (d = Reg.sp → t.sp = s.memRead s.sp + 1) ∧ (d ≠ Reg.pc → t.pc = s.pc + 1) ∧
    SameRegistersBut [d, Reg.sp, Reg.pc] s t ∧ SameMemory s t ∧ SameGraphics s t := by
  obtain ⟨t, ht⟩ : ∃ t, popWord d s = .next t := ⟨_, rfl⟩
  have keeps := popWord_keeps ht
  refine ⟨t, ht, fun hd => ?_, fun hd => ?_, popWord_pc ht, (popWord_registers ht).mono (by simp), keeps.sameMemory,
    keeps.sameGraphics⟩
  · cases ht
    constructor
    · rw [getReg_retire_self, State.getReg_setReg_ne _ _ _ _ hd, State.getReg_setReg_same]
      rfl
    · rw [State.retire_sp, State.setReg_sp, if_pos rfl, State.setReg_sp, if_neg hd]
  · cases ht
    rw [State.retire_sp, State.setReg_sp, if_pos rfl, State.setReg_sp, if_pos hd]

end Sys2Proof.Machine

/-! PROOFS. Subroutine jumps, INT, and a return at once from an interrupt (43_control.md R214, R215, R219, R221). -/

namespace Sys2Proof.Machine

/-- A jump that leaves the memories, from its new pc and its registers. -/
theorem KeepsMemories.jumpsTo {s t : State} (keeps : KeepsMemories s t) {ds : List Reg} {a : Word} (pc : t.pc = a)
    (registers : SameRegistersBut (Reg.pc :: ds) s t) : JumpsTo ds a s t where
  pc := pc
  registers := registers
  memory := keeps.sameMemory
  graphics := keeps.sameGraphics

/-- A taken subroutine jump, whose target is read after the link. -/
theorem jumpSubroutine_taken (target : State → Word) (s : State) :
    ∃ t, jumpSubroutine true target s = .next t ∧ t.lr = s.pc + 1 ∧ JumpsTo [Reg.lr] (target s.link) s t :=
  ⟨_, rfl, rfl, (jumpSubroutine_keeps (taken := true) (target := target) rfl).jumpsTo rfl
    (jumpSubroutine_registers (taken := true) (target := target) rfl)⟩

/-- A subroutine jump that is not taken leaves LR alone. -/
theorem jumpSubroutine_notTaken (target : State → Word) (s : State) :
    ∃ t, jumpSubroutine false target s = .next t ∧ JumpsTo [] (s.pc + 1) s t :=
  ⟨_, rfl, jumpsTo_advance s⟩

theorem State.getReg_link (s : State) (r : Reg) : s.link.getReg r = if r = Reg.lr then s.pc + 1 else s.getReg r := by
  split
  next h => subst h; rfl
  next h => exact State.getReg_setReg_ne s Reg.lr r (s.pc + 1) h

/-- The link does not move the pc, so an offset counts from the jump itself (R213). -/
theorem State.link_pc (s : State) : s.link.pc = s.pc := State.setReg_pc s Reg.lr (s.pc + 1)

theorem exec_jmps (c : Code) (r : Reg) (s : State) :
    exec (.jmps c r) s = jumpSubroutine (s.condHolds condMatchE1 c) (fun t => t.getReg r) s := rfl

theorem exec_jmpsImm (c : Code) (k : BitVec 23) (s : State) :
    exec (.jmpsImm c k) s = jumpSubroutine (s.condHolds condMatchE1 c) (fun t => t.pc + k.signExtend 32) s := rfl

theorem execE2_jmps (c : Code) (r : Reg) (s : State) :
    execE2 (.jmps c r) s = jumpSubroutine (s.condHolds condMatchE2 c) (fun t => t.getReg r) s := rfl

theorem execE2_jmpsImm (c : Code) (k : BitVec 24) (s : State) :
    execE2 (.jmpsImm c k) s = jumpSubroutine (s.condHolds condMatchE2 c) (fun t => t.pc + k.signExtend 32) s := rfl

/-- A subroutine jump to a register, taken. -/
theorem jumpSubroutine_register (r : Reg) (s : State) :
    ∃ t, jumpSubroutine true (fun u => u.getReg r) s = .next t ∧ t.lr = s.pc + 1 ∧
      JumpsTo [Reg.lr] (if r = Reg.lr then s.pc + 1 else s.getReg r) s t :=
  s.getReg_link r ▸ jumpSubroutine_taken (fun u => u.getReg r) s

/-- A subroutine jump by an offset, taken. -/
theorem jumpSubroutine_offset (offset : Word) (s : State) :
    ∃ t, jumpSubroutine true (fun u => u.pc + offset) s = .next t ∧ t.lr = s.pc + 1 ∧
      JumpsTo [Reg.lr] (s.pc + offset) s t :=
  s.link_pc ▸ jumpSubroutine_taken (fun u => u.pc + offset) s

/-- INT under INT_FROM_MEMORY = execute enters the handler where an interrupt is taken, and else only advances the pc. -/
theorem performInterrupt_execute (code : BitVec 4) {s : State} (executes : s.params.intFromMemory = .execute) :
    (s.interruptAccepted = true → ∃ t, performInterrupt code s = .next t ∧ EntersHandler code s t) ∧
      (s.interruptAccepted = false → ∃ t, performInterrupt code s = .next t ∧ JumpsTo [] (s.pc + 1) s t) := by
  rw [(performInterrupt_spec code s).2 executes]
  refine ⟨fun accepted => ?_, fun ignored => ?_⟩
  · rw [if_pos accepted]
    exact ⟨_, rfl, entersHandler_takeInterrupt code s⟩
  · rw [ignored]
    exact ⟨_, rfl, jumpsTo_advance s⟩

theorem exec_int (r : Reg) (s : State) : exec (.int r) s = performInterrupt ((s.getReg r).setWidth 4) s := rfl

theorem exec_intImm (k : BitVec 4) (s : State) : exec (.intImm k) s = performInterrupt k s := rfl

/-- The status register is its code under a clear flag. -/
theorem State.sts_eq_of_clear {s : State} (h : s.intFlag = false) : stsOf false s.code = s.sts := by
  rw [← h]
  exact stsOf_eta s.sts

/-- A return right after an interrupt was taken gives back the pc and the status register; INTLR keeps the link
(60_exceptions.md R405, R410). -/
theorem takeInterrupt_return_registers {s : State} (accepted : s.interruptAccepted = true) (code : BitVec 4) :
    SameRegistersBut [Reg.intlr] s (s.takeInterrupt code).returnFromInterrupt := by
  intro r hr
  have notLink : r ≠ Reg.intlr := by simpa using hr
  have status : stsOf false s.code = s.sts := State.sts_eq_of_clear (s.interruptAccepted_iff.1 accepted).2
  unfold State.getReg
  simp [notLink, status]

/-! ### Edition E2 -/

theorem execE2_cmp (a b : Reg) (s : State) :
    execE2 (.cmp a b) s = finishCompare (compareCodeE2 (s.getReg a).toNat (s.getReg b).toNat) s := rfl

/-- JMPI whose condition matches while an interrupt is handled returns from it (49 R337). -/
theorem interruptJump_returns {taken : Bool} {s : State} (h : taken = true ∧ s.intFlag = true) :
    ∃ t, interruptJump taken s = .next t ∧ t.intFlag = false ∧ t.code = s.code ∧
      JumpsTo [Reg.sts] s.intlr s t := by
  obtain ⟨rfl, handling⟩ := h
  refine ⟨_, rfl, ?_⟩
  rw [State.interruptReturn_of_flag handling]
  exact ⟨s.intFlag_returnFromInterrupt, s.code_returnFromInterrupt, jumpsTo_returnFromInterrupt handling⟩

theorem interruptJump_advances {taken : Bool} {s : State} (h : taken = false ∨ s.intFlag = false) :
    ∃ t, interruptJump taken s = .next t ∧ JumpsTo [] (s.pc + 1) s t := by
  cases taken with
  | false => exact ⟨_, rfl, jumpsTo_advance s⟩
  | true =>
    refine ⟨_, rfl, ?_⟩
    rw [State.interruptReturn_of_clear (by simpa using h)]
    exact jumpsTo_advance s

end Sys2Proof.Machine

/-! PROOFS. The condition codes and the Blitter's operations as tables (43_control.md R211, 49 R304, 44_graphics.md R242). -/

namespace Sys2Proof.Machine

theorem condMatchE1_iff (c k : Code) : condMatchE1 c k = true ↔
    c = 31 ∨ k = 31 ∨ c = k ∨ (c = 0 ∧ (k = 2 ∨ k = 3)) ∨ (c = 4 ∧ (k = 2 ∨ k = 1)) ∨ (c = 5 ∧ (k = 3 ∨ k = 1)) := by
  simp [condMatchE1, or_assoc]

theorem condMatchE2_iff (c k : Code) : condMatchE2 c k = true ↔
    c = 0 ∨ k = 0 ∨ c = k ∨ (c = 1 ∧ (k = 3 ∨ k = 4)) ∨ (c = 5 ∧ (k = 3 ∨ k = 2)) ∨ (c = 7 ∧ (k = 4 ∨ k = 2)) := by
  simp [condMatchE2, or_assoc]

/-- Without a list of pairs the edition's relation decides. -/
theorem State.condHolds_default {s : State} (h : s.params.condMatch = none) (dflt : Code → Code → Bool) (c : Code) :
    s.condHolds dflt c = dflt c s.code := by
  simp [State.condHolds, h]

/-- A list of pairs is the relation, whatever the edition. -/
theorem State.condHolds_pairs {s : State} {ps : List (Code × Code)} (h : s.params.condMatch = some ps)
    (dflt : Code → Code → Bool) (c : Code) : s.condHolds dflt c = true ↔ (c, s.code) ∈ ps := by
  simp [State.condHolds, h]

/-- STS.cc is bits 4:0 of register 29 (10_state.md R19, R21). -/
theorem State.code_eq_getReg_sts (s : State) : s.code = (s.getReg Reg.sts).extractLsb' 0 5 := by
  refine BitVec.eq_of_getLsbD_eq fun i hi => ?_
  simp [State.code, hi]
  omega

/-- One bit of a Blitter operation: the bit of the code that the two inputs select. -/
theorem getLsbD_blop (op : BitVec 4) (s d : Byte) {i : Nat} (hi : i < 8) :
    (blop op s d).getLsbD i = op.getLsbD (3 - 2 * (s.getLsbD i).toNat - (d.getLsbD i).toNat) := by
  have product (bit : Bool) (v : Byte) : (if bit then v else 0).getLsbD i = (bit && v.getLsbD i) := by
    cases bit <;> simp
  simp only [blop, BitVec.getLsbD_or, product, BitVec.getLsbD_and, BitVec.getLsbD_not, hi, decide_true, Bool.true_and]
  cases s.getLsbD i <;> cases d.getLsbD i <;> simp

end Sys2Proof.Machine

/-! PROOFS. GLOD's copy and BLIT's transfer, byte by byte (44_graphics.md R243, R249). -/

namespace Sys2Proof.Machine

/-- GLOD's addresses in the sprite library, which wraps. -/
theorem spriteOffset_toNat (v : Word) (k : Nat) :
    (v.setWidth 12 + BitVec.ofNat 12 k).toNat = (v.toNat + k) % 4096 := by
  simp [BitVec.toNat_add]

theorem exec_glod (d r n : Reg) (s : State) :
    exec (.glod d r n) s = .next (State.advance
      { s with spr := glodCopy s ((s.getReg d).setWidth 12) (s.getReg r) ((s.getReg n).toNat % 4096) }) := by
  have count : ((s.getReg n).setWidth 12).toNat = (s.getReg n).toNat % 4096 := BitVec.toNat_setWidth 12 (s.getReg n)
  rw [← count]
  rfl

theorem State.screenAddress_toNat (s : State) (r c : Nat) :
    (s.screenAddress r c).toNat = (s.bdst.toNat + r * 256 + c) % 2 ^ 16 := by
  simp [State.screenAddress, BitVec.toNat_add, Nat.add_assoc]

theorem State.spriteAddress_toNat (s : State) (r c : Nat) :
    (s.spriteAddress r c).toNat = (s.bsrc.toNat + r * s.bw.toNat + c) % 2 ^ 12 := by
  simp [State.spriteAddress, BitVec.toNat_add, Nat.add_assoc]

/-- Two pixels of a rectangle of at most 256 by 256 have two addresses. -/
theorem State.screenAddress_ne (s : State) {r c r' c' : Nat} (hr : r < 256) (hc : c < 256) (hr' : r' < 256)
    (hc' : c' < 256) (h : r ≠ r' ∨ c ≠ c') : (s.screenAddress r c).toNat ≠ (s.screenAddress r' c').toNat := by
  rw [State.screenAddress_toNat, State.screenAddress_toNat]
  omega

section
variable (s : State) (op : BitVec 4) (mask : Byte)

/-- The pixel that a transfer draws at row `r`, column `c`. -/
def drawnPixel (r c : Nat) : Byte :=
  blop op (s.sprRead (s.spriteAddress r c)) (s.fbRead (s.screenAddress r c)) &&& mask

/-- A row draws over the pixels as they were before it. -/
theorem read_blitRow (fb : List Host.Cell) {r c n : Nat} (hr : r < 256) (hn : n ≤ 256) (hc : c < n)
    (untouched : Memory.read fb (s.screenAddress r c).toNat = s.fbRead (s.screenAddress r c)) :
    Memory.read (blitRow s op mask fb r n) (s.screenAddress r c).toNat = drawnPixel s op mask r c := by
  induction n with
  | zero => omega
  | succ m ih =>
    unfold blitRow
    by_cases last : c = m
    · subst last
      have before : Memory.read (blitRow s op mask fb r c) (s.screenAddress r c).toNat = s.fbRead (s.screenAddress r c) := by
        rw [read_blitRow_ne s op mask fb r c _ fun c' hc' =>
          s.screenAddress_ne hr (by omega) hr (by omega) (.inr (by omega)), untouched]
      rw [Memory.read_write_same, before]
      rfl
    · rw [Memory.read_write_ne _ _ _ _ (s.screenAddress_ne hr (by omega) hr (by omega) (.inr last))]
      exact ih (by omega) (by omega)

/-- A byte of the frame buffer outside the rows drawn. -/
theorem read_blitRows_ne (n j : Nat) (h : ∀ r < n, ∀ c < s.bw.toNat, j ≠ (s.screenAddress r c).toNat) :
    Memory.read (blitRows s op mask n) j = Memory.read s.fb j := by
  induction n with
  | zero => rfl
  | succ m ih =>
    unfold blitRows
    rw [read_blitRow_ne s op mask _ m _ j (h m (by omega))]
    exact ih fun r hr => h r (by omega)

/-- Every pixel of the rows drawn, from the sprite byte and the pixel as they were. -/
theorem read_blitRows {r c n : Nat} (hn : n ≤ 256) (hr : r < n) (hc : c < s.bw.toNat) :
    Memory.read (blitRows s op mask n) (s.screenAddress r c).toNat = drawnPixel s op mask r c := by
  have width : s.bw.toNat ≤ 256 := Nat.le_of_lt (Nat.lt_trans s.bw.isLt (by decide))
  induction n with
  | zero => omega
  | succ m ih =>
    unfold blitRows
    by_cases last : r = m
    · subst last
      exact read_blitRow s op mask _ (by omega) width hc (read_blitRows_ne s op mask r _ fun r' hr' c' hc' =>
        s.screenAddress_ne (by omega) (by omega) (by omega) (by omega) (.inl (by omega)))
    · rw [read_blitRow_ne s op mask _ m _ _ fun c' hc' =>
        s.screenAddress_ne (by omega) (by omega) (by omega) (by omega) (.inl last)]
      exact ih (by omega) (by omega)

/-- A transfer with every Blitter register set. -/
theorem blit_of_ready (ready : s.blitterReady = true) :
    blit op mask s = .next (State.advance { s with fb := blitRows s op mask s.bh.toNat }) := if_pos ready

end

theorem exec_blit (o m : Reg) (s : State) :
    exec (.blit o m) s = blit ((s.getReg o).setWidth 4) ((s.getReg m).setWidth 8) s := rfl

theorem exec_blitImm (x : BitVec 4) (y : Byte) (s : State) : exec (.blitImm x y) s = blit x y s := rfl

/-- The whole effect of a transfer (R249). -/
theorem blit_spec (op : BitVec 4) (mask : Byte) {s : State} (ready : s.blitterReady = true) :
    ∃ t, blit op mask s = .next t ∧ t.pc = s.pc + 1 ∧
      (∀ r < s.bh.toNat, ∀ c < s.bw.toNat,
        Memory.read t.fb ((s.bdst.toNat + r * 256 + c) % 2 ^ 16) =
          blop op (Memory.read s.spr ((s.bsrc.toNat + r * s.bw.toNat + c) % 2 ^ 12))
            (Memory.read s.fb ((s.bdst.toNat + r * 256 + c) % 2 ^ 16)) &&& mask) ∧
      (∀ j, (∀ r < s.bh.toNat, ∀ c < s.bw.toNat, j ≠ (s.bdst.toNat + r * 256 + c) % 2 ^ 16) →
        Memory.read t.fb j = Memory.read s.fb j) ∧
      SameRegistersBut [Reg.pc] s t ∧ SameMemory s t ∧ SameSprites s t ∧ SameBlitter s t ∧ SameSetting s t := by
  have height : s.bh.toNat ≤ 256 := Nat.le_of_lt (Nat.lt_trans s.bh.isLt (by decide))
  refine ⟨_, blit_of_ready s op mask ready, rfl, fun r hr c hc => ?_, fun j hj => ?_, sameRegistersBut_advance _,
    fun _ => rfl, fun _ => rfl, ⟨rfl, rfl, rfl, rfl, rfl, rfl, rfl, rfl⟩, ⟨rfl, rfl, rfl, rfl, rfl⟩⟩
  · rw [← s.screenAddress_toNat, ← s.spriteAddress_toNat]
    exact read_blitRows s op mask height hr hc
  · exact read_blitRows_ne s op mask _ j fun r hr c hc => s.screenAddress_toNat r c ▸ hj r hr c hc

end Sys2Proof.Machine

/-! PROOFS. The statements about the stack, the control instructions and the graphics instructions. -/

namespace Sys2Proof.Settled

open Sys2Proof.Machine

/-- Settles O34. -/
theorem pushWord : Obligations.PushWord := pushWord_spec

/-- Settles O35. -/
theorem popWord : Obligations.PopWord := popWord_spec

/-- Settles O36: the pop loads from where the push stored. -/
theorem pushThenPop : Obligations.PushThenPop := by
  intro a b s t u ha hb pushes pops
  obtain ⟨lowered, writes⟩ := of_next pushes (pushWord_spec a s)
  obtain ⟨loads, -⟩ := of_next pops (popWord_spec b t)
  obtain ⟨value, raised⟩ := loads hb
  obtain ⟨stored, -⟩ := writes.stored
  rw [if_neg ha] at stored
  rw [lowered] at value raised
  rw [stored] at value
  exact ⟨by rw [raised, BitVec.sub_add_cancel], value⟩

/-- Settles O37: the two relations written out, and a given list in their place. -/
theorem conditionMatching : Obligations.ConditionMatching :=
  ⟨fun c k => ⟨condMatchE1_iff c k, condMatchE2_iff c k⟩, fun s c => ⟨s.code_eq_getReg_sts,
    fun h => ⟨State.condHolds_default h _ c, State.condHolds_default h _ c⟩,
    fun _ h => ⟨State.condHolds_pairs h _ c, State.condHolds_pairs h _ c⟩⟩⟩

/-- Settles O39: both forms, taken and not taken. -/
theorem subroutineJump : Obligations.SubroutineJump := by
  intro c r k s
  rw [exec_jmps, exec_jmpsImm]
  refine ⟨fun taken => ?_, fun notTaken => ?_⟩
  · rw [taken]
    exact ⟨jumpSubroutine_register r s, jumpSubroutine_offset (k.signExtend 32) s⟩
  · rw [notTaken]
    exact ⟨jumpSubroutine_notTaken _ s, jumpSubroutine_notTaken _ s⟩

/-- Settles O41: both forms, the interrupt taken and ignored. -/
theorem performInterrupt : Obligations.PerformInterrupt := by
  intro r k s executes p form
  have either : exec p.1 s = Machine.performInterrupt p.2 s := by
    obtain rfl | rfl := List.mem_pair.1 form
    · exact exec_int r s
    · exact exec_intImm k s
  rw [either]
  obtain ⟨enters, advances⟩ := performInterrupt_execute p.2 executes
  exact ⟨fun clear handler => enters (s.interruptAccepted_iff.2 ⟨handler, clear⟩),
    fun ignored => advances (s.interruptAccepted_eq_false_iff.2 ignored)⟩

/-- Settles O43: the entry saves the pc and sets the flag, the return undoes both. -/
theorem interruptRoundTrip : Obligations.InterruptRoundTrip := by
  intro s u code accepted returns
  have handling : (s.takeInterrupt code).intFlag = true := s.intFlag_takeInterrupt code
  rw [State.enter_of_accepted accepted, exec_ijmp, State.interruptReturn_of_flag handling] at returns
  cases returns
  exact ⟨takeInterrupt_return_registers accepted code, rfl, storesWord_writeWord s.mem mailbox (code.setWidth 32),
    SameGraphics.of_eq rfl rfl ⟨rfl, rfl, rfl, rfl, rfl, rfl, rfl, rfl⟩ ⟨rfl, rfl, rfl, rfl, rfl⟩⟩

/-- Settles O45. -/
theorem blitterOperationTable : Obligations.BlitterOperationTable := fun op s d _ hi => getLsbD_blop op s d hi

/-- Settles O46: the copied bytes and the others, at addresses that wrap. -/
theorem loadSprite : Obligations.LoadSprite := by
  intro d r n s
  have short : (s.getReg n).toNat % 4096 ≤ 2 ^ 12 := Nat.le_of_lt (Nat.mod_lt _ (by decide))
  refine ⟨_, exec_glod d r n s, rfl, fun k hk => ?_, fun j hj => ?_, sameRegistersBut_advance _, fun _ => rfl,
    fun _ => rfl, ⟨rfl, rfl, rfl, rfl, rfl, rfl, rfl, rfl⟩, ⟨rfl, rfl, rfl, rfl, rfl⟩⟩
  · rw [← spriteOffset_toNat]
    exact read_glodCopy s _ _ _ short k hk
  · exact read_glodCopy_ne s _ _ _ j fun k hk => spriteOffset_toNat (s.getReg d) k ▸ hj k hk

/-- Settles O49: both forms are one transfer, of the operands of their form. -/
theorem transferRectangle : Obligations.TransferRectangle := by
  intro o m x y s src dst w h p form
  have ready := State.blitterReady_of_set src dst w h
  obtain rfl | rfl := List.mem_pair.1 form
  · rw [exec_blit]
    exact blit_spec _ _ ready
  · rw [exec_blitImm]
    exact blit_spec _ _ ready

/-- Settles O59: the compare's code in E2's numbers, the call as in E1 under E2's conditions, and the conditional return. -/
theorem compareCallAndReturnE2 : Obligations.CompareCallAndReturnE2 := by
  intro a b r c k s
  refine ⟨?compare, fun taken => ?call, fun notTaken => ?noCall, fun i form => ?returning⟩
  case compare =>
    rw [← compareCodeE2_toNat, execE2_cmp]
    exact finishCompare_spec _ s
  case call =>
    rw [execE2_jmps, execE2_jmpsImm, taken]
    exact ⟨jumpSubroutine_register r s, jumpSubroutine_offset (k.signExtend 32) s⟩
  case noCall =>
    rw [execE2_jmps, execE2_jmpsImm, notTaken]
    exact ⟨jumpSubroutine_notTaken _ s, jumpSubroutine_notTaken _ s⟩
  case returning =>
    have either : execE2 i s = interruptJump (s.condHolds condMatchE2 c) s := by
      obtain rfl | rfl := List.mem_pair.1 form <;> rfl
    rw [either]
    exact ⟨interruptJump_returns, interruptJump_advances⟩

end Sys2Proof.Settled

/-! PROOFS. The fields of a float pattern as numbers, and what a packed pattern reads as (40_alu_arithmetic.md R114). -/

namespace Sys2Proof.Machine

/-! ### The fields of a pattern -/

theorem fExp_eq (v : Word) : fExp v = v.toNat / 2 ^ 23 % 2 ^ 8 := by
  simp [fExp, Nat.shiftRight_eq_div_pow]

theorem fFrac_eq (v : Word) : fFrac v = v.toNat % 2 ^ 23 := by
  simp [fFrac]

theorem fSign_eq (v : Word) : fSign v = decide (2 ^ 31 ≤ v.toNat) := by
  have := v.isLt
  rw [fSign, BitVec.getLsbD, Nat.testBit_eq_decide_div_mod_eq]
  exact decide_eq_decide.2 (by omega)

theorem fPack_toNat (negative : Bool) {bits : Nat} (h : bits < 2 ^ 31) :
    (fPack negative bits).toNat = (if negative then 2 ^ 31 else 0) + bits := by
  rw [fPack, BitVec.toNat_ofNat]
  exact Nat.mod_eq_of_lt (by split <;> omega)

theorem fSign_fPack (negative : Bool) {bits : Nat} (h : bits < 2 ^ 31) : fSign (fPack negative bits) = negative := by
  rw [fSign_eq, fPack_toNat negative h]
  cases negative with
  | false => simpa using h
  | true => simp

theorem fExp_fPack (negative : Bool) {bits : Nat} (h : bits < 2 ^ 31) : fExp (fPack negative bits) = bits / 2 ^ 23 := by
  rw [fExp_eq, fPack_toNat negative h]
  split <;> omega

theorem fFrac_fPack (negative : Bool) {bits : Nat} (h : bits < 2 ^ 31) : fFrac (fPack negative bits) = bits % 2 ^ 23 := by
  rw [fFrac_eq, fPack_toNat negative h]
  split <;> omega

/-- The pattern is even where its 31 bits are. -/
theorem getLsbD_fPack_zero (negative : Bool) {bits : Nat} (h : bits < 2 ^ 31) :
    (fPack negative bits).getLsbD 0 = decide (bits % 2 = 1) := by
  rw [BitVec.getLsbD, Nat.testBit_eq_decide_div_mod_eq, fPack_toNat negative h]
  exact decide_eq_decide.2 (by split <;> omega)

/-! ### Magnitudes -/

/-- The pattern is finite: neither an infinity nor a NaN. -/
theorem fMagnitude_lt {w : Word} (h : fExp w < 255) : fMagnitude w < 2 ^ 24 * 2 ^ 253 := by
  have fraction : fFrac w < 2 ^ 23 := BitVec.isLt _
  unfold fMagnitude
  split
  · omega
  · calc (2 ^ 23 + fFrac w) * 2 ^ (fExp w - 1) < 2 ^ 24 * 2 ^ (fExp w - 1) :=
          Nat.mul_lt_mul_of_pos_right (by omega) (by positivity)
      _ ≤ 2 ^ 24 * 2 ^ 253 := Nat.mul_le_mul_left _ (Nat.pow_le_pow_right (by decide) (by omega))

/-- Every magnitude is a significand of 24 bits times a power of two. -/
theorem exists_significand (w : Word) : ∃ m j, m < 2 ^ 24 ∧ fMagnitude w = m * 2 ^ j := by
  have fraction : fFrac w < 2 ^ 23 := BitVec.isLt _
  unfold fMagnitude
  split
  · exact ⟨fFrac w, 0, by omega, by simp⟩
  · exact ⟨2 ^ 23 + fFrac w, fExp w - 1, by omega, rfl⟩

/-- The magnitude of a pattern whose bits are `k * 2^23 + q`, with `q` subnormal or of 24 bits, or rounded up to 2^24. -/
theorem fMagnitude_fPack (negative : Bool) {k q : Nat} (hq : q ≤ 2 ^ 24) (normal : k = 0 ∨ 2 ^ 23 ≤ q)
    (fits : k * 2 ^ 23 + q ≤ fInfBits) : fMagnitude (fPack negative (k * 2 ^ 23 + q)) = q * 2 ^ k := by
  have small : k * 2 ^ 23 + q < 2 ^ 31 := by unfold fInfBits at fits; omega
  have cases : (k = 0 ∧ q < 2 ^ 23) ∨ (2 ^ 23 ≤ q ∧ q < 2 ^ 24) ∨ q = 2 ^ 24 := by omega
  unfold fMagnitude
  rw [fExp_fPack negative small, fFrac_fPack negative small]
  obtain ⟨rfl, sub⟩ | ⟨low, high⟩ | rfl := cases
  · rw [if_pos (by omega)]
    omega
  · have exponent : (k * 2 ^ 23 + q) / 2 ^ 23 = k + 1 := by omega
    have significand : 2 ^ 23 + (k * 2 ^ 23 + q) % 2 ^ 23 = q := by omega
    rw [exponent, if_neg (by omega), significand, Nat.add_sub_cancel]
  · have exponent : (k * 2 ^ 23 + 2 ^ 24) / 2 ^ 23 = k + 2 := by omega
    have significand : 2 ^ 23 + (k * 2 ^ 23 + 2 ^ 24) % 2 ^ 23 = 2 ^ 23 := by omega
    rw [exponent, if_neg (by omega), significand, show k + 2 - 1 = k + 1 by omega, pow_succ, pow_succ]
    ring

end Sys2Proof.Machine

/-! PROOFS. Rounding a ratio to the nearest integer, ties to even, and from it `fRound` (40_alu_arithmetic.md R114). -/

namespace Sys2Proof.Machine

/-- The distance of `m * d` from `n`. -/
def gap (m d n : Nat) : Nat := (((m * d : Nat) : Int) - (n : Int)).natAbs

/-- The integer nearest to `n / u`, ties to even. -/
def roundHalfEven (n u : Nat) : Nat :=
  if 2 * (n % u) > u ∨ (2 * (n % u) = u ∧ n / u % 2 = 1) then n / u + 1 else n / u

section
variable {n u : Nat} (hu : 0 < u)
include hu

/-- Down or up, by the remainder. -/
theorem roundHalfEven_cases : ∃ q r, n = q * u + r ∧ r < u ∧
    ((roundHalfEven n u = q ∧ (2 * r < u ∨ (2 * r = u ∧ q % 2 = 0))) ∨
      (roundHalfEven n u = q + 1 ∧ (u < 2 * r ∨ (2 * r = u ∧ q % 2 = 1)))) := by
  refine ⟨n / u, n % u, (Nat.div_add_mod' n u).symm, Nat.mod_lt n hu, ?_⟩
  unfold roundHalfEven
  split <;> omega

theorem roundHalfEven_nearest (t : Nat) : gap (roundHalfEven n u) u n ≤ gap t u n := by
  obtain ⟨q, r, rfl, remainder, rounded⟩ := roundHalfEven_cases (n := n) hu
  have next : (q + 1) * u = q * u + u := Nat.succ_mul q u
  have side : t * u ≤ q * u ∨ (q + 1) * u ≤ t * u :=
    (Nat.lt_or_ge q t).symm.imp (Nat.mul_le_mul_right u) (Nat.mul_le_mul_right u)
  unfold gap
  obtain ⟨result, low⟩ | ⟨result, high⟩ := rounded <;> rw [result] <;> omega

/-- Of two integers at the same distance the even one is chosen. -/
theorem roundHalfEven_tie {t : Nat} (same : gap (roundHalfEven n u) u n = gap t u n) :
    t = roundHalfEven n u ∨ roundHalfEven n u % 2 = 0 := by
  obtain ⟨q, r, rfl, remainder, rounded⟩ := roundHalfEven_cases (n := n) hu
  have next : (q + 1) * u = q * u + u := Nat.succ_mul q u
  have twoNext : (q + 2) * u = q * u + 2 * u := Nat.add_mul q 2 u
  have before : (t + 1) * u = t * u + u := Nat.succ_mul t u
  have order : t + 1 ≤ q ∨ t = q ∨ t = q + 1 ∨ q + 2 ≤ t := by omega
  have side : (t + 1) * u ≤ q * u ∨ t = q ∨ t = q + 1 ∨ (q + 2) * u ≤ t * u :=
    order.imp (Nat.mul_le_mul_right u) (Or.imp_right (Or.imp_right (Nat.mul_le_mul_right u)))
  unfold gap at same
  obtain ⟨result, low⟩ | ⟨result, high⟩ := rounded <;> rw [result] at same ⊢ <;>
    obtain below | rfl | rfl | above := side <;> omega

theorem roundHalfEven_le {p : Nat} (h : n ≤ p * u) : roundHalfEven n u ≤ p := by
  obtain ⟨q, r, rfl, remainder, rounded⟩ := roundHalfEven_cases (n := n) hu
  have next : (p + 1) * u = p * u + u := Nat.succ_mul p u
  have side : p * u ≤ q * u ∧ (p = q ∨ (p + 1) * u ≤ q * u) ∨ q + 1 ≤ p := by
    rcases Nat.lt_trichotomy p q with below | rfl | above
    · exact .inl ⟨Nat.mul_le_mul_right u (Nat.le_of_lt below), .inr (Nat.mul_le_mul_right u below)⟩
    · exact .inl ⟨le_rfl, .inl rfl⟩
    · exact .inr above
  omega

theorem le_roundHalfEven {p : Nat} (h : p * u ≤ n) : p ≤ roundHalfEven n u := by
  obtain ⟨q, r, rfl, remainder, rounded⟩ := roundHalfEven_cases (n := n) hu
  have next : (q + 1) * u = q * u + u := Nat.succ_mul q u
  have side : p ≤ q ∨ (q + 1) * u ≤ p * u := (Nat.lt_or_ge q p).symm.imp id (Nat.mul_le_mul_right u)
  omega

/-- From the midpoint past an odd integer on, rounding goes beyond it. -/
theorem odd_lt_roundHalfEven_iff {p : Nat} (odd : p % 2 = 1) : p < roundHalfEven n u ↔ (2 * p + 1) * u ≤ 2 * n := by
  obtain ⟨q, r, rfl, remainder, rounded⟩ := roundHalfEven_cases (n := n) hu
  have midpoint : (2 * p + 1) * u = 2 * (p * u) + u := by ring
  have next : (p + 1) * u = p * u + u := Nat.succ_mul p u
  have before : (q + 1) * u = q * u + u := Nat.succ_mul q u
  have order : q + 1 ≤ p ∨ p = q ∨ p + 1 ≤ q := by omega
  have side : (q < p ∧ (q + 1) * u ≤ p * u) ∨ p = q ∨ (p < q ∧ (p + 1) * u ≤ q * u) :=
    order.imp (fun h => ⟨h, Nat.mul_le_mul_right u h⟩) (Or.imp_right fun h => ⟨h, Nat.mul_le_mul_right u h⟩)
  rw [midpoint]
  obtain ⟨result, low⟩ | ⟨result, high⟩ := rounded <;> rw [result] <;>
    obtain ⟨below, far⟩ | rfl | ⟨above, far⟩ := side <;> omega

end

/-! ### The exponent and the significand of a rounded ratio -/

/-- The exponent that leaves a significand of 24 bits, or 0. -/
def roundExponent (n d : Nat) : Nat := Nat.log2 (n / d) - 23

/-- The rounded significand at that exponent. -/
def roundSignificand (n d : Nat) : Nat := roundHalfEven n (d * 2 ^ roundExponent n d)

theorem fRound_eq (n d : Nat) :
    fRound n d = min (roundExponent n d * 2 ^ 23 + roundSignificand n d) fInfBits := rfl

theorem fRound_le (n d : Nat) : fRound n d ≤ fInfBits := Nat.min_le_right _ _

/-- A rounded number that does not overflow is its significand at its exponent. -/
theorem fRound_of_lt {n d : Nat} (h : fRound n d < fInfBits) :
    fRound n d = roundExponent n d * 2 ^ 23 + roundSignificand n d := by
  rw [fRound_eq] at h ⊢
  omega

section
variable {n d : Nat} (hd : 0 < d)
include hd

theorem roundUnit_pos : 0 < d * 2 ^ roundExponent n d := Nat.mul_pos hd (by positivity)

/-- The ratio has no more bits than the exponent and 24 of the significand. -/
theorem lt_of_roundExponent : n < 2 ^ (roundExponent n d + 24) * d := by
  rw [← Nat.div_lt_iff_lt_mul hd]
  refine Nat.lt_of_lt_of_le Nat.lt_log2_self (Nat.pow_le_pow_right (by decide) ?_)
  unfold roundExponent
  omega

/-- Above exponent 0 it has all of them. -/
theorem le_of_roundExponent_pos (h : 0 < roundExponent n d) : 2 ^ (roundExponent n d + 23) * d ≤ n := by
  have log : roundExponent n d + 23 = Nat.log2 (n / d) := by unfold roundExponent at h ⊢; omega
  have nonzero : n / d ≠ 0 := fun zero => by simp [roundExponent, zero] at h
  rw [log, ← Nat.le_div_iff_mul_le hd]
  exact Nat.log2_self_le nonzero

theorem roundSignificand_le : roundSignificand n d ≤ 2 ^ 24 := by
  refine roundHalfEven_le (roundUnit_pos hd) (Nat.le_of_lt ?_)
  have bound := lt_of_roundExponent hd (n := n)
  rwa [show 2 ^ (roundExponent n d + 24) * d = 2 ^ 24 * (d * 2 ^ roundExponent n d) by ring] at bound

/-- A significand above exponent 0 has all its 24 bits, before and after rounding. -/
theorem le_unit_mul (h : 0 < roundExponent n d) : 2 ^ 23 * (d * 2 ^ roundExponent n d) ≤ n := by
  have bound := le_of_roundExponent_pos hd h
  rwa [show 2 ^ (roundExponent n d + 23) * d = 2 ^ 23 * (d * 2 ^ roundExponent n d) by ring] at bound

theorem le_roundSignificand (h : 0 < roundExponent n d) : 2 ^ 23 ≤ roundSignificand n d :=
  le_roundHalfEven (roundUnit_pos hd) (le_unit_mul hd h)

theorem roundExponent_or_normal : roundExponent n d = 0 ∨ 2 ^ 23 ≤ roundSignificand n d :=
  (Nat.eq_zero_or_pos (roundExponent n d)).imp_right (le_roundSignificand hd)

/-- Overflow is exactly from the midpoint past the largest finite number on. -/
theorem fRound_eq_fInfBits_iff : fRound n d = fInfBits ↔ (2 ^ 25 - 1) * 2 ^ 253 * d ≤ 2 * n := by
  have significand := roundSignificand_le hd (n := n)
  have below := lt_of_roundExponent hd (n := n)
  rw [fRound_eq, min_eq_right_iff]
  unfold fInfBits
  rcases Nat.lt_trichotomy (roundExponent n d) 253 with small | exponent | large
  · have far : 2 ^ (roundExponent n d + 24) * d ≤ 2 ^ 23 * 2 ^ 253 * d :=
      Nat.mul_le_mul_right d (by
        rw [show roundExponent n d + 24 = 23 + (roundExponent n d + 1) by omega, pow_add]
        exact Nat.mul_le_mul_left _ (Nat.pow_le_pow_right (by decide) small))
    exact iff_of_false (by omega) (by omega)
  · have goesBeyond := odd_lt_roundHalfEven_iff (n := n) (roundUnit_pos hd (n := n)) (p := 2 ^ 24 - 1) (by decide)
    rw [exponent] at goesBeyond
    have beyond : 255 * 2 ^ 23 ≤ 253 * 2 ^ 23 + roundSignificand n d ↔ 2 ^ 24 - 1 < roundSignificand n d := by omega
    rw [exponent, beyond, roundSignificand, exponent, goesBeyond]
    omega
  · have normal := le_roundSignificand hd (n := n) (by omega)
    have above := le_of_roundExponent_pos hd (n := n) (by omega)
    have far : 2 ^ 24 * 2 ^ 253 * d ≤ 2 ^ (roundExponent n d + 23) * d :=
      Nat.mul_le_mul_right d (by
        rw [show roundExponent n d + 23 = 24 + (roundExponent n d - 1) by omega, pow_add]
        exact Nat.mul_le_mul_left _ (Nat.pow_le_pow_right (by decide) (by omega)))
    exact iff_of_true (by omega) (by omega)

theorem fMagnitude_fRound (negative : Bool) (h : fRound n d < fInfBits) :
    fMagnitude (fPack negative (fRound n d)) = roundSignificand n d * 2 ^ roundExponent n d := by
  have bits := fRound_of_lt h
  rw [bits] at h ⊢
  exact fMagnitude_fPack negative (roundSignificand_le hd) (roundExponent_or_normal hd) (Nat.le_of_lt h)

/-- A finite number whose exponent is below that of the rounded ratio is smaller than the ratio by more than the rounding
error; any other is a multiple of the same unit. So none is nearer, and of two equally near the even one is chosen. -/
theorem fRound_nearest (negative : Bool) (h : fRound n d < fInfBits) (w : Word) :
    gap (fMagnitude (fPack negative (fRound n d))) d n ≤ gap (fMagnitude w) d n ∧
      (gap (fMagnitude (fPack negative (fRound n d))) d n = gap (fMagnitude w) d n →
        fMagnitude w = fMagnitude (fPack negative (fRound n d)) ∨ fRound n d % 2 = 0) := by
  have positive := roundUnit_pos hd (n := n)
  obtain ⟨m, j, hm, magnitude⟩ := exists_significand w
  have parity : fRound n d % 2 = roundSignificand n d % 2 := by rw [fRound_of_lt h]; omega
  have unit (t : Nat) : gap (t * 2 ^ roundExponent n d) d n = gap t (d * 2 ^ roundExponent n d) n := by
    unfold gap
    rw [show t * 2 ^ roundExponent n d * d = t * (d * 2 ^ roundExponent n d) by ring]
  rw [fMagnitude_fRound hd negative h, magnitude, parity, unit]
  rcases Nat.lt_or_ge j (roundExponent n d) with small | large
  · have farther : gap (roundSignificand n d) (d * 2 ^ roundExponent n d) n < gap (m * 2 ^ j) d n := by
      have near := roundHalfEven_nearest (n := n) positive (2 ^ 23)
      have normal := le_unit_mul hd (n := n) (by omega)
      have smaller : m * 2 ^ j * d < 2 ^ 23 * (d * 2 ^ roundExponent n d) := by
        have power : 2 ^ 24 * 2 ^ j ≤ 2 ^ 23 * 2 ^ roundExponent n d := by
          have := Nat.pow_le_pow_right (show 0 < 2 by decide) (Nat.succ_le_of_lt small)
          rw [pow_succ] at this
          omega
        calc m * 2 ^ j * d < 2 ^ 24 * 2 ^ j * d :=
              Nat.mul_lt_mul_of_pos_right (Nat.mul_lt_mul_of_pos_right hm (by positivity)) hd
          _ ≤ 2 ^ 23 * 2 ^ roundExponent n d * d := Nat.mul_le_mul_right d power
          _ = 2 ^ 23 * (d * 2 ^ roundExponent n d) := by ring
      unfold gap at near ⊢
      unfold roundSignificand
      omega
    exact ⟨Nat.le_of_lt farther, fun same => absurd same (Nat.ne_of_lt farther)⟩
  · have multiple : m * 2 ^ j = m * 2 ^ (j - roundExponent n d) * 2 ^ roundExponent n d := by
      rw [Nat.mul_assoc, ← pow_add, Nat.sub_add_cancel large]
    rw [multiple, unit]
    refine ⟨roundHalfEven_nearest positive _, fun same => ?_⟩
    exact (roundHalfEven_tie positive same).imp_left fun equal => by rw [equal]; rfl

end

end Sys2Proof.Machine

namespace Sys2Proof.Settled

open Sys2Proof.Machine

/-- Settles O23: the threshold is the midpoint past the largest significand at the largest exponent, and the rounded
significand is the nearest multiple of its unit, ties to even. -/
theorem floatRounding : Obligations.FloatRounding := by
  unfold Obligations.FloatRounding
  intro n d hd
  exact ⟨fRound_eq_fInfBits_iff hd, fRound_le n d, fun finite w _ => fRound_nearest hd false finite w⟩

end Sys2Proof.Settled

/-! PROOFS. Turning the sign of a pattern, finite patterns and zeros, and the four operations on finite operands: correctly
rounded results with the right sign (40_alu_arithmetic.md R114). -/

namespace Sys2Proof.Machine

/-! ### The sign and the class of a pattern -/

@[simp] theorem fExp_fNegate (a : Word) : fExp (fNegate a) = fExp a := by
  simp [fExp, fNegate, BitVec.extractLsb'_xor]

@[simp] theorem fFrac_fNegate (a : Word) : fFrac (fNegate a) = fFrac a := by
  simp [fFrac, fNegate, BitVec.extractLsb'_xor]

@[simp] theorem fSign_fNegate (a : Word) : fSign (fNegate a) = !fSign a := by
  simp [fSign, fNegate]

@[simp] theorem fIsNaN_fNegate (a : Word) : fIsNaN (fNegate a) = fIsNaN a := by simp [fIsNaN]

@[simp] theorem fIsInf_fNegate (a : Word) : fIsInf (fNegate a) = fIsInf a := by simp [fIsInf]

@[simp] theorem fIsZero_fNegate (a : Word) : fIsZero (fNegate a) = fIsZero a := by simp [fIsZero]

@[simp] theorem fMagnitude_fNegate (a : Word) : fMagnitude (fNegate a) = fMagnitude a := by simp [fMagnitude]

@[simp] theorem fValue_fNegate (a : Word) : fValue (fNegate a) = -fValue a := by
  cases sign : fSign a <;> simp [fValue, sign]

@[simp] theorem natAbs_fValue (a : Word) : (fValue a).natAbs = fMagnitude a := by
  unfold fValue
  split <;> omega

theorem fIsNaN_of_finite {a : Word} (h : fExp a < 255) : fIsNaN a = false := by
  simp [fIsNaN, Nat.ne_of_lt h]

theorem fIsInf_of_finite {a : Word} (h : fExp a < 255) : fIsInf a = false := by
  simp [fIsInf, Nat.ne_of_lt h]

theorem fIsZero_iff (a : Word) : fIsZero a = true ↔ fMagnitude a = 0 := by
  unfold fIsZero fMagnitude
  split <;> simp [*]

/-! ### A sign that fits a number -/

/-- The sign fits the number; both signs fit zero. -/
def SignOf (negative : Bool) (num : Int) : Prop := if negative then num ≤ 0 else 0 ≤ num

theorem signOf_decide (num : Int) : SignOf (decide (num < 0)) num := by
  unfold SignOf
  split <;> simp_all [Int.le_of_lt]

theorem signOf_fSign (a : Word) : SignOf (fSign a) (fValue a) := by
  unfold SignOf fValue
  split <;> omega

theorem SignOf.mul {p q : Bool} {x y : Int} (hx : SignOf p x) (hy : SignOf q y) : SignOf (p != q) (x * y) := by
  unfold SignOf at *
  cases p <;> cases q
  · exact Int.mul_nonneg hx hy
  · exact Int.mul_nonpos_of_nonneg_of_nonpos hx hy
  · exact Int.mul_nonpos_of_nonpos_of_nonneg hx hy
  · exact Int.mul_nonneg_of_nonpos_of_nonpos hx hy

/-! ### A rounded number with its sign -/

theorem fRound_zero (d : Nat) : fRound 0 d = 0 := by
  simp [fRound]

theorem fPack_fInfBits (negative : Bool) :
    fPack negative fInfBits = if negative then 0xFF800000 else 0x7F800000 := by
  cases negative <;> rfl

theorem fRound_lt_pow (n d : Nat) : fRound n d < 2 ^ 31 :=
  Nat.lt_of_le_of_lt (fRound_le n d) (by decide)

/-- The magnitudes are no farther apart than the values. -/
theorem gap_le_natAbs (w : Word) (den : Nat) (num : Int) :
    gap (fMagnitude w) den num.natAbs ≤ (fValue w * den - num).natAbs := by
  have magnitude : (fValue w * den).natAbs = fMagnitude w * den := by simp [Int.natAbs_mul]
  unfold gap
  omega

theorem gap_eq_natAbs {w : Word} {num : Int} (sign : SignOf (fSign w) num) (den : Nat) :
    gap (fMagnitude w) den num.natAbs = (fValue w * den - num).natAbs := by
  unfold SignOf at sign
  unfold gap fValue
  rw [Int.natCast_mul]
  split at sign
  · rw [if_pos (by assumption), Int.neg_mul]
    omega
  · rw [if_neg (by assumption)]
    omega

/-- Opposite numbers are at the same distance from a third only where one of the two is zero. -/
theorem eq_zero_of_natAbs_sub_eq {x y : Int} (same : (x - y).natAbs = (-x - y).natAbs) : x = 0 ∨ y = 0 := by omega

/-- Of two patterns of one magnitude only the signs can differ, and then the distances do, but from zero. -/
theorem fValue_eq_or_eq_zero {w r : Word} {num : Int} {den : Nat} (hden : 0 < den)
    (magnitude : fMagnitude w = fMagnitude r)
    (same : (fValue r * den - num).natAbs = (fValue w * den - num).natAbs) : fValue w = fValue r ∨ num = 0 := by
  rw [← natAbs_fValue, ← natAbs_fValue, Int.natAbs_eq_natAbs_iff] at magnitude
  rcases magnitude with equal | opposite
  · exact .inl equal
  rw [opposite, Int.neg_mul] at same
  refine (eq_zero_of_natAbs_sub_eq same).imp_left fun zero => ?_
  have value : fValue r = 0 := (Int.mul_eq_zero.1 zero).resolve_right (by omega)
  rw [opposite, value, Int.neg_zero]

/-- A magnitude packed with a sign that fits the number is correctly rounded. -/
theorem nearestNumber_fPack {negative : Bool} {num : Int} {den : Nat} (hden : 0 < den) (sign : SignOf negative num) :
    NearestNumber num den (fPack negative (fRound num.natAbs den)) := by
  have overflows := fRound_eq_fInfBits_iff (n := num.natAbs) hden
  have small := fRound_lt_pow num.natAbs den
  have signed := fSign_fPack negative small
  have bounded : num.natAbs < (2 ^ 25 - 1) * 2 ^ 252 * den → fRound num.natAbs den < fInfBits := fun h =>
    Nat.lt_of_le_of_ne (fRound_le _ _) fun equal => by have := overflows.1 equal; omega
  have distance := gap_eq_natAbs (signed.symm ▸ sign) den
  refine ⟨fun h => ?_, fun h => ?_, fun h w _ => ?_, fun h w _ same => ?_⟩
  · rw [overflows.2 (by omega), fPack_fInfBits]
    have agrees : negative = true ↔ num < 0 := by
      unfold SignOf at sign
      split at sign
      · simp_all
        omega
      · simp_all
    simp only [agrees]
  · have := bounded h
    unfold fInfBits at this
    rw [fExp_fPack negative small]
    omega
  · rw [← distance]
    exact Nat.le_trans (fRound_nearest hden negative (bounded h) w).1 (gap_le_natAbs w den num)
  · obtain ⟨nearest, tie⟩ := fRound_nearest hden negative (bounded h) w
    have farther := gap_le_natAbs w den num
    rw [getLsbD_fPack_zero negative small]
    rcases tie (by omega) with magnitude | even
    · exact (fValue_eq_or_eq_zero hden magnitude same).imp_right fun zero => by simp [zero, fRound_zero]
    · exact .inr (by simp [even])

/-! ### The operations on finite operands -/

theorem fAdd_of_finite {a b : Word} (ha : fExp a < 255) (hb : fExp b < 255) :
    fAdd a b = if fValue a + fValue b = 0 then some (fPack (fSign a && fSign b) 0)
      else some (fPack (decide (fValue a + fValue b < 0)) (fRound (fValue a + fValue b).natAbs 1)) := by
  simp [fAdd, fIsNaN_of_finite, fIsInf_of_finite, ha, hb]

theorem fMul_of_finite {a b : Word} (ha : fExp a < 255) (hb : fExp b < 255) :
    fMul a b = some (fPack (fSign a != fSign b) (fRound (fMagnitude a * fMagnitude b) (2 ^ 149))) := by
  simp [fMul, fIsNaN_of_finite, fIsInf_of_finite, ha, hb]

theorem fDiv_of_finite {a b : Word} (ha : fExp a < 255) (hb : fExp b < 255) (nonzero : fIsZero b = false) :
    fDiv a b = some (fPack (fSign a != fSign b) (fRound (fMagnitude a * 2 ^ 149) (fMagnitude b))) := by
  simp [fDiv, fIsNaN_of_finite, fIsInf_of_finite, ha, hb, nonzero]

theorem fAdd_nearest {a b : Word} (ha : fExp a < 255) (hb : fExp b < 255) :
    ∃ r, fAdd a b = some r ∧ NearestNumber (fValue a + fValue b) 1 r := by
  rw [fAdd_of_finite ha hb]
  split
  · next zero =>
    have rounded := nearestNumber_fPack (negative := fSign a && fSign b) (num := 0) Nat.one_pos (by unfold SignOf; simp)
    rw [Int.natAbs_zero, fRound_zero] at rounded
    exact ⟨_, rfl, zero ▸ rounded⟩
  · exact ⟨_, rfl, nearestNumber_fPack Nat.one_pos (signOf_decide _)⟩

theorem fSub_nearest {a b : Word} (ha : fExp a < 255) (hb : fExp b < 255) :
    ∃ r, fSub a b = some r ∧ NearestNumber (fValue a - fValue b) 1 r := by
  have sum := fAdd_nearest (b := fNegate b) ha (by simpa using hb)
  rwa [fValue_fNegate, ← Int.sub_eq_add_neg] at sum

theorem fMul_nearest {a b : Word} (ha : fExp a < 255) (hb : fExp b < 255) :
    ∃ r, fMul a b = some r ∧ fSign r = (fSign a != fSign b) ∧
      NearestNumber (fValue a * fValue b) (2 ^ 149) r := by
  have rounded := nearestNumber_fPack (den := 2 ^ 149) (by positivity) ((signOf_fSign a).mul (signOf_fSign b))
  rw [Int.natAbs_mul, natAbs_fValue, natAbs_fValue] at rounded
  exact ⟨_, fMul_of_finite ha hb, fSign_fPack _ (fRound_lt_pow _ _), rounded⟩

/-- The signed dividend of a quotient: the divisor's sign goes to the dividend. -/
theorem signOf_dividend (a b : Word) :
    SignOf (fSign a != fSign b) ((if fSign b then -1 else 1) * fValue a * 2 ^ 149) := by
  have divisor : SignOf (fSign b) (if fSign b then -1 else 1) := by
    unfold SignOf
    split <;> simp
  have dividend := ((signOf_fSign a).mul divisor).mul (q := false) (y := 2 ^ 149) (by simp [SignOf])
  rwa [Bool.bne_false, Int.mul_comm (fValue a)] at dividend

theorem natAbs_dividend (a b : Word) :
    ((if fSign b then -1 else 1) * fValue a * 2 ^ 149 : Int).natAbs = fMagnitude a * 2 ^ 149 := by
  have unit : (if fSign b then -1 else 1 : Int).natAbs = 1 := by split <;> rfl
  rw [Int.natAbs_mul, Int.natAbs_mul, unit, Nat.one_mul, natAbs_fValue]
  rfl

theorem fDiv_nearest {a b : Word} (ha : fExp a < 255) (hb : fExp b < 255) (nonzero : fIsZero b = false) :
    ∃ r, fDiv a b = some r ∧ fSign r = (fSign a != fSign b) ∧
      NearestNumber ((if fSign b then -1 else 1) * fValue a * 2 ^ 149) (fMagnitude b) r := by
  have positive : 0 < fMagnitude b := Nat.pos_of_ne_zero fun zero => by
    rw [← fIsZero_iff, nonzero] at zero
    contradiction
  have rounded := nearestNumber_fPack positive (signOf_dividend a b)
  rw [natAbs_dividend] at rounded
  exact ⟨_, fDiv_of_finite ha hb nonzero, fSign_fPack _ (fRound_lt_pow _ _), rounded⟩

end Sys2Proof.Machine

namespace Sys2Proof.Settled

open Sys2Proof.Machine

/-- Settles O24: each operation packs the rounded magnitude of the exact result with a sign that fits it. -/
theorem floatResultsAreNearest : Obligations.FloatResultsAreNearest := by
  unfold Obligations.FloatResultsAreNearest
  intro a b ha hb
  exact ⟨fAdd_nearest ha hb, fSub_nearest ha hb, fMul_nearest ha hb, fDiv_nearest ha hb⟩

end Sys2Proof.Settled

/-! PROOFS. The four operations on NaNs, infinities and zeros, the converted immediate, and the float compare
(40_alu_arithmetic.md R114, 41_alu_general.md R154). -/

namespace Sys2Proof.Machine

/-! ### Classes of special patterns -/

theorem fIsNaN_of_infinity {a : Word} (h : fIsInf a = true) : fIsNaN a = false := by
  simp_all [fIsNaN, fIsInf]

theorem fIsZero_of_infinity {a : Word} (h : fIsInf a = true) : fIsZero a = false := by
  simp_all [fIsZero, fIsInf]

theorem fExp_of_zero {a : Word} (h : fIsZero a = true) : fExp a < 255 := by
  simp_all [fIsZero]

theorem fValue_of_zero {a : Word} (h : fIsZero a = true) : fValue a = 0 := by
  rw [fIsZero_iff] at h
  simp [fValue, h]

/-- The infinity of a product's or a quotient's sign. -/
theorem fPack_signs_fInfBits (a b : Word) :
    fPack (fSign a != fSign b) fInfBits = if fSign a = fSign b then 0x7F800000 else 0xFF800000 := by
  rw [fPack_fInfBits]
  split <;> split <;> simp_all

/-- The zero of a quotient's sign. -/
theorem fPack_signs_zero (a b : Word) :
    fPack (fSign a != fSign b) 0 = if fSign a = fSign b then 0 else 0x80000000 := by
  cases fSign a <;> cases fSign b <;> rfl

/-! ### A NaN operand -/

theorem fAdd_of_NaN {a b : Word} (h : fIsNaN a = true ∨ fIsNaN b = true) : fAdd a b = none := by
  simp [fAdd, h]

theorem fSub_of_NaN {a b : Word} (h : fIsNaN a = true ∨ fIsNaN b = true) : fSub a b = none :=
  fAdd_of_NaN (by simpa using h)

theorem fMul_of_NaN {a b : Word} (h : fIsNaN a = true ∨ fIsNaN b = true) : fMul a b = none := by
  simp [fMul, h]

theorem fDiv_of_NaN {a b : Word} (h : fIsNaN a = true ∨ fIsNaN b = true) : fDiv a b = none := by
  simp [fDiv, h]

/-! ### Two infinities -/

section
variable {a b : Word} (ha : fIsInf a = true) (hb : fIsInf b = true)
include ha hb

theorem fAdd_infinities : fAdd a b = if fSign a = fSign b then some a else none := by
  simp only [fAdd, fIsNaN_of_infinity ha, fIsNaN_of_infinity hb, ha, hb]
  split <;> simp_all

theorem fSub_infinities : fSub a b = if fSign a = fSign b then none else some a := by
  rw [fSub, fAdd_infinities ha (by simpa using hb), fSign_fNegate]
  cases fSign a <;> cases fSign b <;> rfl

theorem fMul_infinities : fMul a b = some (if fSign a = fSign b then 0x7F800000 else 0xFF800000) := by
  rw [← fPack_signs_fInfBits]
  simp [fMul, fIsNaN_of_infinity ha, fIsNaN_of_infinity hb, fIsZero_of_infinity hb, ha]

theorem fDiv_infinities : fDiv a b = none := by
  simp [fDiv, ha, hb]

end

/-! ### An infinity and a finite number -/

section
variable {a b : Word} (ha : fIsInf a = true) (hb : fExp b < 255)
include ha hb

theorem fAdd_infinity_finite : fAdd a b = some a := by
  simp [fAdd, fIsNaN_of_infinity ha, fIsNaN_of_finite hb, ha, fIsInf_of_finite hb]

theorem fAdd_finite_infinity : fAdd b a = some a := by
  simp [fAdd, fIsNaN_of_infinity ha, fIsNaN_of_finite hb, ha, fIsInf_of_finite hb]

theorem fSub_infinity_finite : fSub a b = some a := fAdd_infinity_finite ha (by simpa using hb)

theorem fSub_finite_infinity : fSub b a = some (fNegate a) := fAdd_finite_infinity (by simpa using ha) hb

theorem fDiv_infinity_finite : fDiv a b = some (if fSign a = fSign b then 0x7F800000 else 0xFF800000) := by
  rw [← fPack_signs_fInfBits]
  simp [fDiv, fIsNaN_of_infinity ha, fIsNaN_of_finite hb, ha, fIsInf_of_finite hb]

theorem fDiv_finite_infinity : fDiv b a = some (if fSign a = fSign b then 0 else 0x80000000) := by
  rw [← fPack_signs_zero, bne_comm]
  simp [fDiv, fIsNaN_of_infinity ha, fIsNaN_of_finite hb, ha, fIsInf_of_finite hb]

theorem fMul_infinity_finite : fMul a b =
    if fIsZero b then none else some (if fSign a = fSign b then 0x7F800000 else 0xFF800000) := by
  rw [← fPack_signs_fInfBits]
  simp [fMul, fIsNaN_of_infinity ha, fIsNaN_of_finite hb, ha]

theorem fMul_finite_infinity : fMul b a =
    if fIsZero b then none else some (if fSign a = fSign b then 0x7F800000 else 0xFF800000) := by
  rw [← fPack_signs_fInfBits, bne_comm]
  simp [fMul, fIsNaN_of_infinity ha, fIsNaN_of_finite hb, ha, fIsInf_of_finite hb]

end

/-! ### Zeros and opposite numbers -/

theorem fAdd_zeros {a b : Word} (ha : fIsZero a = true) (hb : fIsZero b = true) :
    fAdd a b = some (if fSign a = true ∧ fSign b = true then 0x80000000 else 0) := by
  rw [fAdd_of_finite (fExp_of_zero ha) (fExp_of_zero hb), fValue_of_zero ha, fValue_of_zero hb]
  cases fSign a <;> cases fSign b <;> rfl

theorem fSub_zeros {a b : Word} (ha : fIsZero a = true) (hb : fIsZero b = true) :
    fSub a b = some (if fSign a = true ∧ fSign b = false then 0x80000000 else 0) := by
  rw [fSub, fAdd_zeros ha (by simpa using hb), fSign_fNegate]
  simp only [Bool.not_eq_true']

theorem fDiv_by_zero {a b : Word} (ha : fExp a < 255) (hb : fIsZero b = true) : fDiv a b =
    if fIsZero a then none else some (if fSign a = fSign b then 0x7F800000 else 0xFF800000) := by
  rw [← fPack_signs_fInfBits]
  have finite := fExp_of_zero hb
  simp [fDiv, fIsNaN_of_finite, fIsInf_of_finite, ha, hb, finite]

theorem fAdd_fNegate {a : Word} (ha : fExp a < 255) : fAdd a (fNegate a) = some 0 := by
  rw [fAdd_of_finite ha (by simpa using ha), fValue_fNegate, Int.add_right_neg, fSign_fNegate, Bool.and_not_self]
  rfl

/-! ### The converted immediate -/

theorem roundHalfEven_mul {t u : Nat} (hu : 0 < u) : roundHalfEven (t * u) u = t := by
  simp [roundHalfEven, Nat.mul_div_cancel t hu, Nat.ne_of_lt hu]

/-- A multiple of a power of two by a number of 24 bits is rounded to itself. -/
theorem fMagnitude_fRound_exact (negative : Bool) {m j : Nat} (hm : m < 2 ^ 24)
    (finite : fRound (m * 2 ^ j) 1 < fInfBits) : fMagnitude (fPack negative (fRound (m * 2 ^ j) 1)) = m * 2 ^ j := by
  have exponent : roundExponent (m * 2 ^ j) 1 ≤ j := by
    rcases Nat.eq_zero_or_pos (roundExponent (m * 2 ^ j) 1) with zero | positive
    · omega
    · have bits := calc 2 ^ (roundExponent (m * 2 ^ j) 1 + 23)
          = 2 ^ (roundExponent (m * 2 ^ j) 1 + 23) * 1 := (Nat.mul_one _).symm
        _ ≤ m * 2 ^ j := le_of_roundExponent_pos Nat.one_pos positive
        _ < 2 ^ 24 * 2 ^ j := Nat.mul_lt_mul_of_pos_right hm (by positivity)
        _ = 2 ^ (24 + j) := (pow_add 2 24 j).symm
      have := (Nat.pow_lt_pow_iff_right (by decide)).1 bits
      omega
  have multiple : m * 2 ^ j = m * 2 ^ (j - roundExponent (m * 2 ^ j) 1) * 2 ^ roundExponent (m * 2 ^ j) 1 := by
    rw [Nat.mul_assoc, ← pow_add, Nat.sub_add_cancel exponent]
  rw [fMagnitude_fRound Nat.one_pos negative finite, roundSignificand, Nat.one_mul]
  generalize roundExponent (m * 2 ^ j) 1 = k at multiple ⊢
  rw [multiple, roundHalfEven_mul (by positivity)]

theorem fOfInt_exact {i : Int} (small : i.natAbs < 2 ^ 24) :
    fExp (fOfInt i) < 255 ∧ fValue (fOfInt i) = i * 2 ^ 149 := by
  have bits := fRound_lt_pow (i.natAbs * 2 ^ 149) 1
  have finite : fRound (i.natAbs * 2 ^ 149) 1 < fInfBits :=
    Nat.lt_of_le_of_ne (fRound_le _ _) fun equal => by
      have := (fRound_eq_fInfBits_iff Nat.one_pos).1 equal
      omega
  constructor
  · rw [fOfInt, fExp_fPack _ bits]
    unfold fInfBits at finite
    omega
  · rw [fValue, fOfInt, fSign_fPack _ bits, fMagnitude_fRound_exact _ small finite]
    simp only [decide_eq_true_eq]
    omega

theorem natAbs_toInt_lt (k : BitVec 9) : k.toInt.natAbs < 2 ^ 24 := by
  have low := BitVec.le_two_mul_toInt (x := k)
  have high := BitVec.two_mul_toInt_lt (x := k)
  omega

/-! ### The compare -/

/-- The infinities are beyond every finite number. -/
theorem fValue_between_infinities {w : Word} (h : fExp w < 255) :
    fValue 0xFF800000 < fValue w ∧ fValue w < fValue 0x7F800000 := by
  have magnitude := fMagnitude_lt h
  have below : fValue 0xFF800000 = -(2 ^ 24 * 2 ^ 253) := by decide
  have above : fValue 0x7F800000 = 2 ^ 24 * 2 ^ 253 := by decide
  rw [below, above, fValue]
  split <;> omega

end Sys2Proof.Machine

namespace Sys2Proof.Settled

open Sys2Proof.Machine

/-- Settles O25: each operation on each class of operands, and the exact conversion of a small integer. -/
theorem floatSpecialOperands : Obligations.FloatSpecialOperands := by
  unfold Obligations.FloatSpecialOperands
  refine ⟨fun a b nan => ⟨fAdd_of_NaN nan, fSub_of_NaN nan, fMul_of_NaN nan, fDiv_of_NaN nan⟩,
    fun a b ha hb => ⟨fAdd_infinities ha hb, fSub_infinities ha hb, fMul_infinities ha hb, fDiv_infinities ha hb⟩,
    fun a b ha hb => ?infinity,
    fun a b ha hb => ⟨?zeroByZero, fAdd_zeros ha hb, fSub_zeros ha hb⟩,
    fun a b ha nonzero hb => ?byZero,
    fun a ha => ⟨fAdd_fNegate ha, fAdd_fNegate ha⟩,
    fIsNaN_drawnNaN, fun k => fOfInt_exact (natAbs_toInt_lt k)⟩
  case infinity =>
    refine ⟨fAdd_infinity_finite ha hb, fAdd_finite_infinity ha hb, fSub_infinity_finite ha hb,
      fSub_finite_infinity ha hb, fDiv_infinity_finite ha hb, fDiv_finite_infinity ha hb, fun zero => ?_, fun nonzero => ?_⟩
    · simp [fMul_infinity_finite ha hb, fMul_finite_infinity ha hb, zero]
    · simp [fMul_infinity_finite ha hb, fMul_finite_infinity ha hb, nonzero]
  case zeroByZero => rw [fDiv_by_zero (fExp_of_zero ha) hb, if_pos ha]
  case byZero => simp [fDiv_by_zero ha hb, nonzero]

/-- Settles O31: CMPF writes the float unit's code, which the IEEE unit takes from the values. -/
theorem floatCompare : Obligations.FloatCompare := by
  unfold Obligations.FloatCompare
  refine ⟨fun a b s => ?_, by decide, fun w finite => fValue_between_infinities finite⟩
  obtain ⟨t, completes, writes⟩ := finishCompare_spec (s.floatCompareCode (s.getReg a) (s.getReg b)) s
  exact ⟨_, t, completes, writes, fun ieee => by rw [State.floatCompareCode, ieee]; rfl⟩

end Sys2Proof.Settled
